-- ==== Sys2Proof/Word.lean ====
section
/-! DEFINITION. The word types of the engine (00_scope.md R6, R8) and the names of its generators. -/

namespace Sys2Proof

/-- A 64-bit word: a generator output, a state word, a host register (R6). -/
abbrev Word := BitVec 64

/-- A 32-bit pattern: an integer bound or an int32 result (R6, R11). -/
abbrev Half := BitVec 32

/-- A byte of the fill buffer (R42). -/
abbrev Byte := BitVec 8

/-- The two bit generators of the engine (R7, R15). -/
inductive Gen where
  | sm   -- SplitMix64
  | xo   -- Xoroshiro128+
  deriving DecidableEq, Repr

/-- The three legal values of the GSEL field (30_encoding.md R114); `11` is always illegal and has no constructor.
`dflt` is GSEL `00`: "def" on a sampling command, "none" on a SETDEF command. -/
inductive GSel where
  | dflt
  | sm
  | xo
  deriving DecidableEq, Repr

end Sys2Proof
end

