-- ==== Sys2Proof/Syntax.lean ====
section
/-! DEFINITION. The commands of the engine: one constructor for each row of the opcode map (30_encoding.md R118). -/

namespace Sys2Proof

/-- A decoded command. `gsel` is the GSEL field where the command has a choice (R114), `len` the LEN field of FILL (R116).
Every other operand is fixed by the opcode and comes from ARG0 and ARG1 (R117). -/
inductive Instr where
  | nop                                      -- R159
  | clrstat                                  -- R160
  | smSeed                                   -- R185
  | smSeedEnt                                -- R186
  | xoSetstate                               -- R205
  | xoSeed                                   -- R206
  | xoSeedEnt                                -- R207
  | next64 (gsel : GSel)                     -- R220
  | next32 (gsel : GSel)                     -- R221
  | fill (gsel : GSel) (len : BitVec 16)     -- R222
  | uiSetlb                                  -- R240
  | uiSetub                                  -- R241
  | uiSetdef (gsel : GSel)                   -- R242
  | uiSample (gsel : GSel)                   -- R248
  | uiSamplerange (gsel : GSel)              -- R249
  | udSetdef (gsel : GSel)                   -- R273
  | udSample (gsel : GSel)                   -- R274
  deriving DecidableEq, Repr

end Sys2Proof
end

