-- ==== Sys2Proof/WellFormed.lean ====
section
/-! DEFINITION. Which commands have an encoding: the GSEL values that R114 and R118 call legal. -/

namespace Sys2Proof

/-- GSEL names a generator: the only legal values for NEXT64, NEXT32 and FILL (R114). -/
def GSel.named : GSel → Bool
  | .dflt => false
  | .sm => true
  | .xo => true

/-- A command is well formed when its GSEL is legal for its opcode (R118, column "GSEL legal"). -/
def Instr.wf : Instr → Bool
  | .nop => true
  | .clrstat => true
  | .smSeed => true
  | .smSeedEnt => true
  | .xoSetstate => true
  | .xoSeed => true
  | .xoSeedEnt => true
  | .next64 gsel => gsel.named
  | .next32 gsel => gsel.named
  | .fill gsel _ => gsel.named
  | .uiSetlb => true
  | .uiSetub => true
  | .uiSetdef _ => true
  | .uiSample _ => true
  | .uiSamplerange _ => true
  | .udSetdef _ => true
  | .udSample _ => true

end Sys2Proof
end

