-- ==== Sys2Proof/Decode.lean ====
section
/-! DEFINITION. Decoding a 64-bit CMD write (30_encoding.md R110 to R122), total, and the encoder that inverts it. -/

namespace Sys2Proof

/-- Why a CMD write is illegal (R120). All five are the one error code ILLEGAL to the engine. -/
inductive DecodeError where
  | upperHalf      -- bits 63:32 of the CMD write are not 0 (R112)
  | reservedBits   -- RSV is not 0 (R115)
  | opcode         -- OPC is not in the opcode map (R113)
  | gsel           -- GSEL is not legal for the opcode (R114)
  | len            -- LEN is not 0 on an opcode other than FILL (R116)
  deriving DecidableEq, Repr

/-- Bits 63:32 of the CMD write (R112). -/
def fieldUpper (v : Word) : BitVec 32 := v.extractLsb' 32 32
/-- LEN, bits 31:16 (R111). -/
def fieldLen (v : Word) : BitVec 16 := v.extractLsb' 16 16
/-- RSV, bits 15:10 (R111). -/
def fieldRsv (v : Word) : BitVec 6 := v.extractLsb' 10 6
/-- GSEL, bits 9:8 (R111). -/
def fieldGsel (v : Word) : BitVec 2 := v.extractLsb' 8 2
/-- OPC, bits 7:0 (R111). -/
def fieldOpc (v : Word) : BitVec 8 := v.extractLsb' 0 8

/-- The bits of a GSEL value (R114). -/
def GSel.bits : GSel → BitVec 2
  | .dflt => 0b00#2
  | .sm => 0b01#2
  | .xo => 0b10#2

/-- Reading a GSEL field; `11` is illegal for every opcode (R114). -/
def GSel.ofBits (b : BitVec 2) : Option GSel :=
  if b = 0b00#2 then some .dflt
  else if b = 0b01#2 then some .sm
  else if b = 0b10#2 then some .xo
  else none

/-- The GSEL values legal for an opcode (R118): only `00`; `01` and `10`; all three. -/
inductive GselRule where
  | zeroOnly
  | named
  | any
  deriving DecidableEq, Repr

/-- The check `w[9:8] not in op.GSEL_legal` of R119. -/
def GselRule.allows : GselRule → GSel → Bool
  | .zeroOnly, g => g == .dflt
  | .named, g => g.named
  | .any, _ => true

/-- A row of the opcode map: the legal GSEL values, whether LEN is an operand, and the command it names (R118). -/
structure OpRow where
  gsel : GselRule
  usesLen : Bool
  build : GSel → BitVec 16 → Instr

/-- The opcode map (R118); an OPC that is not in it names no command (R113, R121). -/
def opRow (opc : BitVec 8) : Option OpRow :=
  match opc with
  | 0x00#8 => some ⟨.zeroOnly, false, fun _ _ => .nop⟩
  | 0x01#8 => some ⟨.zeroOnly, false, fun _ _ => .clrstat⟩
  | 0x10#8 => some ⟨.zeroOnly, false, fun _ _ => .smSeed⟩
  | 0x11#8 => some ⟨.zeroOnly, false, fun _ _ => .smSeedEnt⟩
  | 0x20#8 => some ⟨.zeroOnly, false, fun _ _ => .xoSetstate⟩
  | 0x21#8 => some ⟨.zeroOnly, false, fun _ _ => .xoSeed⟩
  | 0x22#8 => some ⟨.zeroOnly, false, fun _ _ => .xoSeedEnt⟩
  | 0x30#8 => some ⟨.named, false, fun g _ => .next64 g⟩
  | 0x31#8 => some ⟨.named, false, fun g _ => .next32 g⟩
  | 0x32#8 => some ⟨.named, true, fun g n => .fill g n⟩
  | 0x40#8 => some ⟨.zeroOnly, false, fun _ _ => .uiSetlb⟩
  | 0x41#8 => some ⟨.zeroOnly, false, fun _ _ => .uiSetub⟩
  | 0x42#8 => some ⟨.any, false, fun g _ => .uiSetdef g⟩
  | 0x43#8 => some ⟨.any, false, fun g _ => .uiSample g⟩
  | 0x44#8 => some ⟨.any, false, fun g _ => .uiSamplerange g⟩
  | 0x50#8 => some ⟨.any, false, fun g _ => .udSetdef g⟩
  | 0x51#8 => some ⟨.any, false, fun g _ => .udSample g⟩
  | _ => none

/-- The checks of R119 after the opcode lookup: GSEL legal, then LEN. -/
def OpRow.decode (r : OpRow) (g : BitVec 2) (n : BitVec 16) : Except DecodeError Instr :=
  match GSel.ofBits g with
  | none => .error .gsel
  | some gs =>
    if r.gsel.allows gs = false then .error .gsel
    else if r.usesLen = false ∧ n ≠ 0 then .error .len
    else .ok (r.build gs n)

/-- Decoding a CMD write: R119, its checks in its order. -/
def decode (v : Word) : Except DecodeError Instr :=
  if fieldUpper v ≠ 0 then .error .upperHalf
  else if fieldRsv v ≠ 0 then .error .reservedBits
  else match opRow (fieldOpc v) with
    | none => .error .opcode
    | some r => r.decode (fieldGsel v) (fieldLen v)

/-- The OPC value of a command (R118). -/
def Instr.opc : Instr → BitVec 8
  | .nop => 0x00#8
  | .clrstat => 0x01#8
  | .smSeed => 0x10#8
  | .smSeedEnt => 0x11#8
  | .xoSetstate => 0x20#8
  | .xoSeed => 0x21#8
  | .xoSeedEnt => 0x22#8
  | .next64 _ => 0x30#8
  | .next32 _ => 0x31#8
  | .fill _ _ => 0x32#8
  | .uiSetlb => 0x40#8
  | .uiSetub => 0x41#8
  | .uiSetdef _ => 0x42#8
  | .uiSample _ => 0x43#8
  | .uiSamplerange _ => 0x44#8
  | .udSetdef _ => 0x50#8
  | .udSample _ => 0x51#8

/-- The GSEL field of a command; `00` where the opcode has no choice (R118). -/
def Instr.gsel : Instr → GSel
  | .nop => .dflt
  | .clrstat => .dflt
  | .smSeed => .dflt
  | .smSeedEnt => .dflt
  | .xoSetstate => .dflt
  | .xoSeed => .dflt
  | .xoSeedEnt => .dflt
  | .next64 g => g
  | .next32 g => g
  | .fill g _ => g
  | .uiSetlb => .dflt
  | .uiSetub => .dflt
  | .uiSetdef g => g
  | .uiSample g => g
  | .uiSamplerange g => g
  | .udSetdef g => g
  | .udSample g => g

/-- The LEN field of a command: FILL's byte count, 0 for every other opcode (R116). -/
def Instr.len : Instr → BitVec 16
  | .nop => 0
  | .clrstat => 0
  | .smSeed => 0
  | .smSeedEnt => 0
  | .xoSetstate => 0
  | .xoSeed => 0
  | .xoSeedEnt => 0
  | .next64 _ => 0
  | .next32 _ => 0
  | .fill _ n => n
  | .uiSetlb => 0
  | .uiSetub => 0
  | .uiSetdef _ => 0
  | .uiSample _ => 0
  | .uiSamplerange _ => 0
  | .udSetdef _ => 0
  | .udSample _ => 0

/-- The fields of `CMD32` put together (R111), widened to the 64-bit CMD write (R110). -/
def packFields (len : BitVec 16) (rsv : BitVec 6) (gsel : BitVec 2) (opc : BitVec 8) : Word :=
  (0#32 ++ len ++ rsv ++ gsel ++ opc : BitVec 64)

/-- The CMD write of a command: the encoder, from R111, R114, R116 and R118. -/
def encode (i : Instr) : Word := packFields i.len 0 i.gsel.bits i.opc

/-- What the decoder reads from the first `nbits` bits of `w`, numbered as the opcode table numbers them, with every
higher bit of the CMD write 0. -/
def decodeTableWord (nbits w : Nat) : Option Instr :=
  match decode (BitVec.ofNat 64 (w % 2 ^ nbits)) with
  | .ok i => some i
  | .error _ => none

end Sys2Proof
end

