-- ==== Sys2Proof/Config.lean ====
section
/-! DEFINITION. What is fixed for the machine: the fill buffer's size, and the free values for what the spec leaves open.
A free value has no body: no proof can see what it is. -/

namespace Sys2Proof.Config

/-- `FBUF_BYTES`, the size of the fill buffer in bytes (00_scope.md R7, decision D9). -/
abbrev fbufBytes : Nat := 256

/-- Free 64-bit values, one for each natural number: a value that a host read returns while BUSY = 1 (20_memory.md R78, U3),
and the generator state words at reset (10_state.md R57, U1). DESIGN CHOICE: see log 4 and log 5. -/
opaque freeWord : Nat → Word

/-- Free bytes, one for each natural number: the fill buffer's bytes at reset (R57, U2). DESIGN CHOICE: see log 4. -/
opaque freeByte : Nat → Byte

/-- `ENGINE_BASE`, the address at which the platform puts the window (20_memory.md R70): OPEN, so a constant without a body. It is the base of the machine
of State.reset; every step and every statement takes the base from the state, whatever it is. DESIGN CHOICE: see log 11. -/
opaque engineBase : Nat

end Sys2Proof.Config
end

