-- ==== Sys2Proof/Machine/State.lean ====
section
/-! DEFINITION. The state of the engine (10_state.md R30), its port to the outside world, its reset, and the reasons a step can stop. -/

namespace Sys2Proof.Machine

/-- The error codes of STATUS.ERR (60_exceptions.md R301); codes 8 to 15 are never written. -/
inductive ErrCode where
  | ok
  | illegal
  | invalidRange
  | nullGenerator
  | unseeded
  | entropyUnavailable
  | zeroState
  | badLength
  deriving DecidableEq, Repr

/-- The state words of the two generators: SM_S (R32), XO_S1 and XO_S2 (R33). -/
structure GenRegs where
  smS : Word
  xoS1 : Word
  xoS2 : Word
  deriving DecidableEq, Repr

/-- The in-flight command (R54, R150): the CMD write and the operands read at acceptance (R158), and its progress: the draws
taken so far, the pending update of the generator state, and whether it has requested an entropy word and waits for it (R96). -/
structure InFlight where
  word : Word
  a0 : Word
  a1 : Word
  draws : Nat
  pending : Option GenRegs
  waiting : Bool
  deriving DecidableEq, Repr

/-- The registers of the MMIO window (20_memory.md R71). -/
inductive Reg where
  | cmd
  | status
  | arg0
  | arg1
  | res
  | lb
  | ub
  | cfg
  | fbuf (j : Fin 32)
  deriving DecidableEq, Repr

/-- One event of the outside world. Log 1 and log 3 say why they stand in a queue.
`read` and `write`: a host access at a byte address of the host's address space, with its width in bytes (R70, R72).
`entAvail` and `entWord`: the entropy facility changes ENT_AVAIL, or delivers a word (R95).
`engine`: the engine takes its turn before the next event (R85: completions interleave with accesses).
`reset`: the reset input is asserted (70_reset_and_hazards.md R340). -/
inductive Input where
  | read (addr width : Nat)
  | write (addr width : Nat) (v : Word)
  | entAvail (b : Bool)
  | entWord (w : Word)
  | engine
  | reset
  deriving DecidableEq, Repr

/-- The whole state: R30's registers and flags, the in-flight command, the entropy port's input signals (R95), the parameter
`engineBase` (R70), and the model's own fields `inputs`, `readData` and `freeCtr` (INVENTORY.md, State). BUSY and ENT_REQ are the functions `State.busy` and `State.entReq`. -/
structure State where
  gens : GenRegs                        -- SM_S, XO_S1, XO_S2
  smV : Bool                            -- SM_V (R36)
  xoV : Bool                            -- XO_V (R36)
  lb : Half                             -- LB (R37)
  ub : Half                             -- UB (R37)
  uiDef : Option Gen                    -- UI_DEF (R39)
  udDef : Option Gen                    -- UD_DEF (R39)
  arg0 : Word                           -- ARG0 (R40)
  arg1 : Word                           -- ARG1 (R40)
  res : Word                            -- RES (R41)
  fbuf : Vector Byte Config.fbufBytes   -- FBUF (R42)
  ovr : Bool                            -- OVR (R45)
  efatal : Bool                         -- EFATAL (R46)
  entInit : Bool                        -- ENTINIT (R47)
  err : ErrCode                         -- ERR (R48)
  inflight : Option InFlight            -- the in-flight command, and with it BUSY (R44, R54)
  entAvail : Bool                       -- ENT_AVAIL (R95)
  entValid : Bool                       -- ENT_VALID (R95)
  entData : Word                        -- ENT_DATA (R95)
  engineBase : Nat                      -- ENGINE_BASE, which no step changes (R70)
  inputs : List Input                   -- the outside world's next events, oldest first
  readData : List Word                  -- what host reads returned, newest first
  freeCtr : Nat                         -- the next free value
  deriving DecidableEq, Repr

/-- Reasons the machine stops with a fault. -/
inductive Fault where
  /-- Raised by `hostAccess` (Machine/HostPort.lean) for a host access whose address is not in the 4096-byte window at ENGINE_BASE (R70).
  Safe: such an access never reaches the engine (R84), and the model stops instead of serving it. -/
  | outsideWindow
  deriving DecidableEq, Repr

/-- Reasons the machine refuses to go on. -/
inductive Refusal where
  /-- Raised by an arm of `exec` that has no meaning yet. Safe: the model stops. -/
  | notModelled (mnemonic : String)
  /-- Raised by `hostAccess` (Machine/HostPort.lean) for a host access that is not 8 bytes wide or not 8-byte aligned:
  R72 asks a model for this refusal by this name. Safe: the model stops. -/
  | narrowOrMisalignedAccess
  deriving DecidableEq, Repr

/-- The outcome of a step or of a meaning. -/
abbrev Result := Host.Outcome State Fault Refusal

/-- How many free values a reset takes from the counter: three state words and the bytes of FBUF. -/
abbrev resetDraws : Nat := 3 + Config.fbufBytes

/-- The state after a reset that takes its unspecified values from the free values `c`, `c + 1`, … (R57, R340). The entropy signals, the base
and the model's own fields are those of a machine nothing has happened to yet (log 1, 6, 7, 11, 15). -/
def State.resetAt (c : Nat) : State where
  gens :=
    { smS := Config.freeWord c
      xoS1 := Config.freeWord (c + 1)
      xoS2 := Config.freeWord (c + 2) }
  smV := false
  xoV := false
  lb := 0
  ub := 0x7FFFFFFF
  uiDef := none
  udDef := none
  arg0 := 0
  arg1 := 0
  res := 0
  fbuf := Vector.ofFn fun i => Config.freeByte (c + 3 + i)
  ovr := false
  efatal := false
  entInit := false
  err := .ok
  inflight := none
  entAvail := true
  entValid := false
  entData := 0
  engineBase := Config.engineBase
  inputs := []
  readData := []
  freeCtr := c + resetDraws

/-- The machine right after reset (R57, R341). -/
def State.reset : State := State.resetAt 0

end Sys2Proof.Machine
end

