-- ==== Sys2Proof/Machine/Operands.lean ====
section
/-! DEFINITION. The constants of R14, the bit operations of R8 to R11, and the operands a command reads (30_encoding.md R117). -/

namespace Sys2Proof.Machine

/-- `GAMMA` (R14). -/
def gamma : Word := 0x9E3779B97F4A7C15
/-- `MIX1` (R14). -/
def mix1 : Word := 0xBF58476D1CE4E5B9
/-- `MIX2` (R14). -/
def mix2 : Word := 0x94D049BB133111EB
/-- `UINT64_MAX` (R14). -/
def uint64Max : Word := 0xFFFFFFFFFFFFFFFF
/-- `FULL_RANGE` (R14). -/
def fullRange : Half := 0xFFFFFFFF
/-- `ONE_F64`, the binary64 encoding of 1.0 (R14). -/
def oneF64 : Word := 0x3FF0000000000000

/-- `rotateLeft(x, k)`, for k in 1..63 (R10). -/
def rotateLeft (x : Word) (k : Nat) : Word := (x <<< k) ||| (x >>> (64 - k))

/-- Byte `k` of a word, `v[8k+7:8k]` (R8); also what host byte lane `k` carries (20_memory.md R80). -/
def byteOf (v : Word) (k : Nat) : Byte := v.extractLsb' (8 * k) 8

/-- `trunc32(v)`: `v[31:0]` (R11). Also the pattern of a bound operand: the upper half is ignored (D33). -/
def trunc32 (v : Word) : Half := v.setWidth 32

/-- `zext_64` of a 32-bit pattern (R11). -/
def zext64 (v : Half) : Word := v.setWidth 64

/-- `sext_64` of a 32-bit pattern (R11). -/
def sext64 (v : Half) : Word := v.signExtend 64

/-- `as_i32(u) <= as_i32(v)` (R11, R38). -/
def leI32 (u v : Half) : Bool := decide (u.toInt ≤ v.toInt)

/-- BUSY (R44): a command is in flight. R150 sets both at once and R151 clears both at once (log 2). -/
def State.busy (s : State) : Bool := s.inflight.isSome

/-- ENT_REQ (R95, R96): the in-flight command has requested an entropy word and waits for it (log 9). -/
def State.entReq (s : State) : Bool :=
  match s.inflight with
  | some f => f.waiting
  | none => false

/-- Operand `a0`: ARG0 as read at acceptance (R150, R158). With no command in flight, the live register (log 12). -/
def State.a0 (s : State) : Word :=
  match s.inflight with
  | some f => f.a0
  | none => s.arg0

/-- Operand `a1`: ARG1 as read at acceptance (R150, R158). With no command in flight, the live register (log 12). -/
def State.a1 (s : State) : Word :=
  match s.inflight with
  | some f => f.a1
  | none => s.arg1

/-- The generator a GSEL value and a default name, seeded or not; `none` when neither names one (the `case` of R155). -/
def gselTarget (gsel : GSel) (dflt : Option Gen) : Option Gen :=
  match gsel with
  | .sm => some .sm
  | .xo => some .xo
  | .dflt => dflt

/-- What a SETDEF command stores: none, SplitMix64 or Xoroshiro128+ (R114, R242, R273). -/
def gselStored (gsel : GSel) : Option Gen :=
  match gsel with
  | .dflt => none
  | .sm => some .sm
  | .xo => some .xo

end Sys2Proof.Machine
end

