-- ==== Sys2Proof/Machine/Flags.lean ====
section
/-! DEFINITION. The engine's flags as the host reads them: STATUS, CFG and the error codes (10_state.md R43 to R50, 60_exceptions.md R301). -/

namespace Sys2Proof.Machine

/-- The number of an error code (R301). -/
def ErrCode.code : ErrCode → BitVec 4
  | .ok => 0
  | .illegal => 1
  | .invalidRange => 2
  | .nullGenerator => 3
  | .unseeded => 4
  | .entropyUnavailable => 5
  | .zeroState => 6
  | .badLength => 7

/-- The 2-bit encoding of a default generator (R39). -/
def defCode : Option Gen → BitVec 2
  | none => 0
  | some .sm => 1
  | some .xo => 2

/-- STATUS while BUSY = 0 (R43): bit 0 BUSY, 1 OVR, 2 EFATAL, 3 ENTINIT, 7:4 ERR, 8 SM_V, 9 XO_V; 63:10 read 0 (R49). -/
def State.statusWord (s : State) : Word :=
  (0#54 ++ BitVec.ofBool s.xoV ++ BitVec.ofBool s.smV ++ s.err.code ++ BitVec.ofBool s.entInit
    ++ BitVec.ofBool s.efatal ++ BitVec.ofBool s.ovr ++ BitVec.ofBool s.busy : BitVec 64)

/-- STATUS while BUSY = 1 (20_memory.md R78): bit 0 reads 1, bits 1 to 9 are those of a free value, 63:10 read 0 (R49). -/
def busyStatusWord (free : Word) : Word :=
  (0#54 ++ free.extractLsb' 1 9 ++ 1#1 : BitVec 64)

/-- CFG (R50): bits 1:0 UI_DEF, bits 3:2 UD_DEF, 63:4 read 0. -/
def State.cfgWord (s : State) : Word :=
  (0#60 ++ defCode s.udDef ++ defCode s.uiDef : BitVec 64)

end Sys2Proof.Machine
end

