-- ==== Sys2Proof/Machine/Ops.lean ====
section
/-! DEFINITION. The shared operations: the command cycle and raising an error (40_execution.md R150, R151; 60_exceptions.md R303), the generator
datapaths and the draw (R156, R180, R181, R200, R204), generator resolution (R155), the entropy port (20_memory.md R95 to R98), reset (R340). -/

namespace Sys2Proof.Machine

/-! ## The command cycle -/

/-- Acceptance of a CMD write (R150): BUSY becomes 1, and the word and the operands enter the in-flight record. -/
def State.accept (v : Word) (s : State) : State :=
  { s with
    inflight := some { word := v, a0 := s.arg0, a1 := s.arg1, draws := 0, pending := none, waiting := false } }

/-- Completion (R151, R153): ERR takes the code, BUSY becomes 0 and nothing stays in flight. -/
def State.complete (code : ErrCode) (s : State) : State :=
  { s with err := code, inflight := none }

/-- Normal completion. -/
def State.finish (s : State) : State := s.complete .ok

/-- `raise E` (R303): the command ends with the code and none of its writes, so it is applied to the state before them.
This is the engine's whole exception entry: no state is saved, no control is transferred and there is no return (R300, R311). -/
def State.raise (e : ErrCode) (s : State) : State := s.complete e

/-- A command that completes normally with the writes made in `s`. -/
def done (s : State) : Result := .next s.finish

/-- A command that raises `e` in the state `s` it was given. -/
def raised (e : ErrCode) (s : State) : Result := .next (s.raise e)

/-! ## The generator datapaths -/

/-- `SM_MIX` (41_splitmix64.md R180). The constants stand on the left of the wrapping product (R182), which commutes: so the kernel stops at
once on a variable, where it would unfold the constant as a unary number. -/
def smMix (z : Word) : Word :=
  let z1 := mix1 * (z ^^^ (z >>> 30))
  let z2 := mix2 * (z1 ^^^ (z1 >>> 27))
  z2 ^^^ (z2 >>> 31)

/-- `SM_STEP` (R181): the new state `s + GAMMA` (the constant on the left, as in `smMix`), and the output mixed from the new state. -/
def smStep (s : Word) : Word × Word :=
  let s' := gamma + s
  (s', smMix s')

/-- `XO_STEP` (42_xoroshiro128plus.md R200): the new XO_S1, the new XO_S2, and the output, which is the sum of the old words (R201). -/
def xoStep (a b : Word) : Word × Word × Word :=
  let r := a + b
  let b1 := b ^^^ a
  (rotateLeft a 55 ^^^ b1 ^^^ (b1 <<< 14), rotateLeft b1 36, r)

/-- `Draw64(g)` (R156) on the state words: the new state words, and the 64-bit output. -/
def draw64 (g : Gen) (r : GenRegs) : GenRegs × Word :=
  match g with
  | .sm =>
    let (s, z) := smStep r.smS
    ({ r with smS := s }, z)
  | .xo =>
    let (a, b, w) := xoStep r.xoS1 r.xoS2
    ({ r with xoS1 := a, xoS2 := b }, w)

/-- `n` draws one after the other, each from the state the one before left (R157): the outputs in order, and the last state. -/
def drawMany (g : Gen) : Nat → GenRegs → List Word × GenRegs
  | 0, r => ([], r)
  | n + 1, r =>
    let (r', w) := draw64 g r
    let (ws, r'') := drawMany g n r'
    (w :: ws, r'')

/-- `XO_DISCARD` (R204): one step of Xoroshiro128+, its output written nowhere. -/
def xoDiscard (r : GenRegs) : GenRegs := (draw64 .xo r).1

/-- The body of XO_SEED (R206) on the state words: two outputs of a temporary SplitMix64 become the state, then the discard. -/
def xoSeedRegs (seed : Word) (r : GenRegs) : GenRegs :=
  let (t1, w1) := smStep seed
  let (_, w2) := smStep t1
  xoDiscard { r with xoS1 := w1, xoS2 := w2 }

/-! ## Choosing a generator -/

/-- Whether a generator has been seeded since reset: SM_V or XO_V (R36). -/
def State.seeded (s : State) (g : Gen) : Bool :=
  match g with
  | .sm => s.smV
  | .xo => s.xoV

/-- `ResolveGen(gsel, def)` (R155): NULL_GENERATOR before UNSEEDED (R304). -/
def resolveGen (gsel : GSel) (dflt : Option Gen) (s : State) : Except ErrCode Gen :=
  match gselTarget gsel dflt with
  | none => .error .nullGenerator
  | some g => if s.seeded g then .ok g else .error .unseeded

/-- A command that resolves its generator and goes on with it, or raises what the resolution raises. -/
def withGen (gsel : GSel) (dflt : Option Gen) (s : State) (k : Gen → Result) : Result :=
  match resolveGen gsel dflt s with
  | .error e => raised e s
  | .ok g => k g

/-- `r` with the words of the generator `g` taken from `p`, and the other generator's words its own. -/
def GenRegs.withWords (g : Gen) (p r : GenRegs) : GenRegs :=
  match g with
  | .sm => { r with smS := p.smS }
  | .xo => { r with xoS1 := p.xoS1, xoS2 := p.xoS2 }

/-- The generator state a running command draws from when it draws from `g` (R54, R157): the pending update of `g` if there is one, its registers before
the first draw. The other generator's words are the registers' always (R220). -/
def State.workGens (g : Gen) (s : State) : GenRegs :=
  match s.inflight with
  | some f => (f.pending.getD s.gens).withWords g s.gens
  | none => s.gens

/-- A command that takes exactly one draw and completes by writing a function of it to RES (R220, R221, R274). -/
def oneDraw (g : Gen) (f : Word → Word) (s : State) : Result :=
  let (r, w) := draw64 g s.gens
  done { s with gens := r, res := f w }

/-! ## The entropy port -/

/-- `EntropyInitCheck` (R98): the state after the check, and whether the facility may be used. ENT_AVAIL is sampled only while ENTINIT = 0. -/
def entropyInit (s : State) : State × Bool :=
  if s.efatal then (s, false)
  else if s.entInit then (s, true)
  else if s.entAvail then ({ s with entInit := true }, true)
  else ({ s with entInit := true, efatal := true }, false)

/-- `EntropyRead64` raises ENT_REQ (R96): the in-flight command now waits for a word (R97). -/
def State.wait (s : State) : State :=
  { s with inflight := s.inflight.map fun f => { f with waiting := true } }

/-- An entropy command (R186, R207): in its first turn the check of R98, then `EntropyRead64` raises ENT_REQ (R96). In every later turn ENT_REQ is 1: with a
word delivered the command completes by `k` of it, and the word is consumed (log 7); with none it waits (R97). So no word is taken that was not requested (log 9). -/
def withEntropy (s : State) (k : Word → State → State) : Result :=
  if s.entReq then
    if s.entValid then done (k s.entData { s with entValid := false }) else .next s
  else
    match entropyInit s with
    | (s1, false) => raised .entropyUnavailable s1
    | (s1, true) => .next s1.wait

/-! ## Reset -/

/-- The reset input (70_reset_and_hazards.md R340): every piece of engine state takes its value of R57, with fresh free values. What stands outside
the engine stays: the entropy signals, the base of the window, the events to come, and the data already returned (log 7, 11). -/
def State.assertReset (s : State) : State :=
  { State.resetAt s.freeCtr with
    entAvail := s.entAvail
    entValid := s.entValid
    entData := s.entData
    engineBase := s.engineBase
    inputs := s.inputs
    readData := s.readData }

end Sys2Proof.Machine
end

