-- ==== Sys2Proof/Machine/BitGenerator.lean ====
section
/-! DEFINITION. The bit-generator commands (43_bit_generator.md R220 to R222). -/

namespace Sys2Proof.Machine

/-- NEXT64 (R220). -/
def execNext64 (gsel : GSel) (s : State) : Result :=
  withGen gsel none s fun g => oneDraw g (fun w => w) s

/-- NEXT32 (R221): the low 32 bits of one whole draw, zero-extended. -/
def execNext32 (gsel : GSel) (s : State) : Result :=
  withGen gsel none s fun g => oneDraw g (fun w => zext64 (trunc32 w)) s

/-- How many draws a fill of `n` bytes takes: `ceil(n / 8)` (R222). -/
def fillDraws (n : Nat) : Nat := (n + 7) / 8

/-- The buffer after a fill of `n` bytes from the draws `ws`: byte `8j + k` is byte `k` of draw `j`, low byte first; bytes from `n` on
keep their contents (R222). -/
def fillBuffer (n : Nat) (ws : List Word) (old : Vector Byte Config.fbufBytes) : Vector Byte Config.fbufBytes :=
  Vector.ofFn fun i => if i.val < n then byteOf (ws.getD (i.val / 8) 0) (i.val % 8) else old[i]

/-- FILL (R222): BAD_LENGTH before the generator is resolved. -/
def execFill (gsel : GSel) (len : BitVec 16) (s : State) : Result :=
  if Config.fbufBytes < len.toNat then raised .badLength s
  else withGen gsel none s fun g =>
    let (ws, r) := drawMany g (fillDraws len.toNat) s.gens
    done { s with gens := r, fbuf := fillBuffer len.toNat ws s.fbuf }

end Sys2Proof.Machine
end

