-- ==== Sys2Proof/Machine/Control.lean ====
section
/-! DEFINITION. The engine-control commands (40_execution.md R159, R160). -/

namespace Sys2Proof.Machine

/-- NOP (R159): nothing but completion, which writes ERR. -/
def execNop (s : State) : Result := done s

/-- CLRSTAT (R160): clears OVR, and neither EFATAL nor ENTINIT. -/
def execClrstat (s : State) : Result := done { s with ovr := false }

end Sys2Proof.Machine
end

