-- ==== Sys2Proof/Machine/SplitMix.lean ====
section
/-! DEFINITION. The SplitMix64 construction commands (41_splitmix64.md R185, R186). -/

namespace Sys2Proof.Machine

/-- SM_SEED (R185); no discard (R187). -/
def execSmSeed (s : State) : Result :=
  done { s with gens := { s.gens with smS := s.a0 }, smV := true }

/-- SM_SEED_ENT (R186): one entropy word becomes SM_S. -/
def execSmSeedEnt (s : State) : Result :=
  withEntropy s fun e s1 => { s1 with gens := { s1.gens with smS := e }, smV := true }

end Sys2Proof.Machine
end

