-- ==== Sys2Proof/Machine/UniformDouble.lean ====
section
/-! DEFINITION. The uniform double mapper and its commands (45_uniform_double.md R270 to R277). -/

namespace Sys2Proof.Machine

/-- `UD_BITS(m)` (R271): the binary64 encoding of m / 2^52 for m below 2^52, by a leading-one detector and a shifter; +0.0 for m = 0 (R275). -/
def udBits (m : Nat) : Word :=
  if m = 0 then 0
  else
    let p := Nat.log2 m
    (0#1 ++ BitVec.ofNat 11 (971 + p) ++ BitVec.ofNat 52 (m <<< (52 - p)) : BitVec 64)

/-- `y` of R270: sign 0, biased exponent 0x3FF, and the top 52 bits of the draw as the fraction. -/
def udOperand (raw : Word) : Word := oneF64 ||| (raw >>> 12)

/-- The significand of a binary64 value with biased exponent 0x3FF, in units of 2^-52: the implicit 1 and the fraction (R12, R271). -/
def significand (y : Word) : Nat := 2 ^ 52 + (y.extractLsb' 0 52).toNat

/-- `fsub(f64(y), 1.0)` for `y` in [1, 2) (R270): the exact difference, which R271 shows to be representable, in units of 2^-52 (log 13). -/
def fsubOne (y : Word) : Word := udBits (significand y - significand oneF64)

/-- `UD_MAP(raw)` (R270). -/
def udMap (raw : Word) : Word := fsubOne (udOperand raw)

/-- UD_SETDEF (R273). -/
def execUdSetdef (gsel : GSel) (s : State) : Result := done { s with udDef := gselStored gsel }

/-- UD_SAMPLE (R274): exactly one draw. -/
def execUdSample (gsel : GSel) (s : State) : Result :=
  withGen gsel s.udDef s fun g => oneDraw g udMap s

end Sys2Proof.Machine
end

