-- ==== Sys2Proof/Machine/UniformInt.lean ====
section
/-! DEFINITION. The uniform integer mapper and its commands (44_uniform_int.md R240 to R254). -/

namespace Sys2Proof.Machine

/-- `range` (R243): the difference of the bounds modulo 2^32. -/
def uiRange (lb ub : Half) : Half := ub - lb

/-- `span` (R244). -/
def uiSpan (range : Half) : Word := zext64 range + 1

/-- `bucketCount` (R244). -/
def uiBucketCount (range : Half) : Word := uint64Max / uiSpan range

/-- `limit` (R244). -/
def uiLimit (range : Half) : Word := uiBucketCount range * uiSpan range

/-- What one draw gives (R245 to R247): `none` when the rejection loop rejects it, else the result as a 32-bit pattern.
The full range takes every draw; the comparison is unsigned and strict (C2). -/
def uiAccept (lb ub : Half) (sample : Word) : Option Half :=
  let range := uiRange lb ub
  if range = fullRange then some (trunc32 sample + lb)
  else if sample < uiLimit range then some (trunc32 (sample / uiBucketCount range) + lb)
  else none

/-- A rejected draw (R245, R306): the command stays in flight; its draw count and its pending generator update advance (R54), nothing else. -/
def State.reject (r : GenRegs) (s : State) : State :=
  { s with inflight := s.inflight.map fun f => { f with draws := f.draws + 1, pending := some r } }

/-- One turn of `UI_MAP` (R250): one draw, and on an accepted draw the completion with the sign-extended result (R248). -/
def uiMapTurn (lb ub : Half) (g : Gen) (s : State) : Result :=
  let (r, w) := draw64 g (s.workGens g)
  match uiAccept lb ub w with
  | some v => done { s with gens := r, res := sext64 v }
  | none => .next (s.reject r)

/-- UI_SETLB (R240): INVALID_RANGE when the new bound would exceed UB. -/
def execUiSetlb (s : State) : Result :=
  if leI32 (trunc32 s.a0) s.ub then done { s with lb := trunc32 s.a0 } else raised .invalidRange s

/-- UI_SETUB (R241): INVALID_RANGE when the new bound would be below LB. -/
def execUiSetub (s : State) : Result :=
  if leI32 s.lb (trunc32 s.a0) then done { s with ub := trunc32 s.a0 } else raised .invalidRange s

/-- UI_SETDEF (R242). -/
def execUiSetdef (gsel : GSel) (s : State) : Result := done { s with uiDef := gselStored gsel }

/-- UI_SAMPLE (R248). -/
def execUiSample (gsel : GSel) (s : State) : Result :=
  withGen gsel s.uiDef s fun g => uiMapTurn s.lb s.ub g s

/-- UI_SAMPLERANGE (R249): INVALID_RANGE before the generator is resolved (R304). -/
def execUiSamplerange (gsel : GSel) (s : State) : Result :=
  if leI32 (trunc32 s.a0) (trunc32 s.a1) then
    withGen gsel s.uiDef s fun g => uiMapTurn (trunc32 s.a0) (trunc32 s.a1) g s
  else raised .invalidRange s

end Sys2Proof.Machine
end

