-- ==== Sys2Proof/Machine/Xoroshiro.lean ====
section
/-! DEFINITION. The Xoroshiro128+ construction commands (42_xoroshiro128plus.md R205 to R207). -/

namespace Sys2Proof.Machine

/-- XO_SETSTATE (R205): ZERO_STATE on (0, 0); else the two words, then the discard (R204). -/
def execXoSetstate (s : State) : Result :=
  if s.a0 = 0 ∧ s.a1 = 0 then raised .zeroState s
  else done { s with gens := xoDiscard { s.gens with xoS1 := s.a0, xoS2 := s.a1 }, xoV := true }

/-- XO_SEED (R206): SM_S and SM_V are not touched. -/
def execXoSeed (s : State) : Result :=
  done { s with gens := xoSeedRegs s.a0 s.gens, xoV := true }

/-- XO_SEED_ENT (R207): the body of XO_SEED with one entropy word as the seed. -/
def execXoSeedEnt (s : State) : Result :=
  withEntropy s fun e s1 => { s1 with gens := xoSeedRegs e s1.gens, xoV := true }

end Sys2Proof.Machine
end

