-- ==== Sys2Proof/Machine/Dispatch.lean ====
section
/-! DEFINITION. The meaning of each command. -/

namespace Sys2Proof.Machine

def exec (i : Instr) (s : State) : Host.Outcome State Fault Refusal :=
  match i with
  | .nop => Sys2Proof.Machine.execNop s
  | .clrstat => Sys2Proof.Machine.execClrstat s
  | .smSeed => Sys2Proof.Machine.execSmSeed s
  | .smSeedEnt => Sys2Proof.Machine.execSmSeedEnt s
  | .xoSetstate => Sys2Proof.Machine.execXoSetstate s
  | .xoSeed => Sys2Proof.Machine.execXoSeed s
  | .xoSeedEnt => Sys2Proof.Machine.execXoSeedEnt s
  | .next64 gsel => Sys2Proof.Machine.execNext64 gsel s
  | .next32 gsel => Sys2Proof.Machine.execNext32 gsel s
  | .fill gsel len => Sys2Proof.Machine.execFill gsel len s
  | .uiSetlb => Sys2Proof.Machine.execUiSetlb s
  | .uiSetub => Sys2Proof.Machine.execUiSetub s
  | .uiSetdef gsel => Sys2Proof.Machine.execUiSetdef gsel s
  | .uiSample gsel => Sys2Proof.Machine.execUiSample gsel s
  | .uiSamplerange gsel => Sys2Proof.Machine.execUiSamplerange gsel s
  | .udSetdef gsel => Sys2Proof.Machine.execUdSetdef gsel s
  | .udSample gsel => Sys2Proof.Machine.execUdSample gsel s

end Sys2Proof.Machine
end

