-- ==== Sys2Proof/Machine/HostPort.lean ====
section
/-! DEFINITION. The host's accesses to the MMIO window (20_memory.md R70 to R81) and the other events of the outside world. -/

namespace Sys2Proof.Machine

/-- The size of the window in bytes (R70). -/
def windowBytes : Nat := 4096

/-- The offset of a register (R71). -/
def Reg.offset : Reg → Nat
  | .cmd => 0x000
  | .status => 0x008
  | .arg0 => 0x010
  | .arg1 => 0x018
  | .res => 0x020
  | .lb => 0x028
  | .ub => 0x030
  | .cfg => 0x038
  | .fbuf j => 0x100 + 8 * j.val

/-- The register at an aligned offset of the window; `none` for the rows R71 marks "—" (R75). -/
def regAt (off : Nat) : Option Reg :=
  if off = 0x000 then some .cmd
  else if off = 0x008 then some .status
  else if off = 0x010 then some .arg0
  else if off = 0x018 then some .arg1
  else if off = 0x020 then some .res
  else if off = 0x028 then some .lb
  else if off = 0x030 then some .ub
  else if off = 0x038 then some .cfg
  else if h : 0x100 ≤ off ∧ off < 0x200 then some (.fbuf ⟨(off - 0x100) / 8, by omega⟩)
  else none

/-- `FBUF[i]` (R13, R42): reading one byte of the fill buffer. -/
def State.fbufByte (s : State) (i : Fin Config.fbufBytes) : Byte := s.fbuf[i]

/-- FBUF word `j` (R81): `{FBUF[8j+7], …, FBUF[8j]}`. -/
def State.fbufWord (s : State) (j : Fin 32) : Word :=
  let byte (k : Fin 8) : Byte := s.fbufByte ⟨8 * j.val + k.val, by change _ < 256; omega⟩
  (byte 7 ++ byte 6 ++ byte 5 ++ byte 4 ++ byte 3 ++ byte 2 ++ byte 1 ++ byte 0 : BitVec 64)

/-- What a read of a register returns while BUSY = 0 (R71, R73). -/
def State.idleRead (s : State) : Reg → Word
  | .cmd => 0
  | .status => s.statusWord
  | .arg0 => s.arg0
  | .arg1 => s.arg1
  | .res => s.res
  | .lb => sext64 s.lb
  | .ub => sext64 s.ub
  | .cfg => s.cfgWord
  | .fbuf j => s.fbufWord j

/-- Whether a read of the register while BUSY = 1 returns unspecified bits (R78). -/
def Reg.freeWhileBusy : Reg → Bool
  | .cmd => false
  | .status => true
  | .arg0 => false
  | .arg1 => false
  | .res => true
  | .lb => true
  | .ub => true
  | .cfg => true
  | .fbuf _ => true

/-- What a read of a register returns while BUSY = 1 (R78), where `free` is this read's free value. -/
def State.busyRead (s : State) (free : Word) : Reg → Word
  | .cmd => 0
  | .status => busyStatusWord free
  | .arg0 => s.arg0
  | .arg1 => s.arg1
  | .res => free
  | .lb => free
  | .ub => free
  | .cfg => free
  | .fbuf _ => free

/-- The data of `MemRead(off, 8)` in the state `s` (R73, R75, R78). -/
def State.readValue (s : State) (off : Nat) : Word :=
  match regAt off with
  | none => 0
  | some r => if s.busy then s.busyRead (Config.freeWord s.freeCtr) r else s.idleRead r

/-- How many free values `MemRead(off, 8)` takes: a fresh one for each read of unspecified bits (R78). -/
def State.readDraws (s : State) (off : Nat) : Nat :=
  match regAt off with
  | none => 0
  | some r => if s.busy && r.freeWhileBusy then 1 else 0

/-- `MemRead(off, 8)`: the data are returned to the host; no engine state changes (R73). -/
def hostRead (off : Nat) (s : State) : State :=
  { s with readData := s.readValue off :: s.readData, freeCtr := s.freeCtr + s.readDraws off }

/-- `MemWrite(off, 8, v)`: R74 while BUSY = 0, R77 while BUSY = 1; every other offset ignores the write (R75, R76). -/
def hostWrite (off : Nat) (v : Word) (s : State) : State :=
  match regAt off with
  | some .cmd => if s.busy then { s with ovr := true } else s.accept v
  | some .arg0 => if s.busy then { s with ovr := true } else { s with arg0 := v }
  | some .arg1 => if s.busy then { s with ovr := true } else { s with arg1 := v }
  | some .status => s
  | some .res => s
  | some .lb => s
  | some .ub => s
  | some .cfg => s
  | some (.fbuf _) => s
  | none => s

/-- The only access the engine defines: 8 bytes wide at an 8-byte-aligned offset (R72). -/
def definedAccess (off width : Nat) : Bool := width == 8 && off % 8 == 0

/-- The offset in the window of an address of the host, when it is in the window: the window stands at ENGINE_BASE (R70). -/
def State.windowOffset (s : State) (addr : Nat) : Option Nat :=
  if s.engineBase ≤ addr ∧ addr < s.engineBase + windowBytes then some (addr - s.engineBase) else none

/-- A host access: `serve` gives the state after serving it at its offset, when it is in the window and defined; otherwise the run stops (R72, log 11). -/
def hostAccess (addr width : Nat) (serve : Nat → State) (s : State) : Result :=
  match s.windowOffset addr with
  | none => .fault .outsideWindow
  | some off => if definedAccess off width then .next (serve off) else .refused .narrowOrMisalignedAccess

/-- An event other than the engine's turn, in the state it has been taken from. -/
def serveInput (i : Input) (s : State) : Result :=
  match i with
  | .read addr width => hostAccess addr width (fun off => hostRead off s) s
  | .write addr width v => hostAccess addr width (fun off => hostWrite off v s) s
  | .entAvail b => .next { s with entAvail := b }
  | .entWord w => .next { s with entValid := true, entData := w }
  | .engine => .next s
  | .reset => .next s.assertReset

/-- The command word the engine is to run: that of the command in flight (R150). -/
def fetch (s : State) : Option Word := s.inflight.map fun f => f.word

/-- A CMD write for the engine to take at once: accepted as R150 accepts it, and the engine's turn comes next. -/
def placeCommand (v : Word) (s : State) : State :=
  { s.accept v with inputs := .engine :: s.inputs }

end Sys2Proof.Machine
end

