-- ==== Sys2Proof/Machine/Step.lean ====
section
/-! DEFINITION. One step of the machine: the next event of the outside world, or a turn of the engine. -/

namespace Sys2Proof.Machine

/-- A turn of the engine (R150, R151): the command in flight is decoded and run; a word that does not decode raises ILLEGAL (R120);
an idle engine keeps all state (R318). -/
def engineTurn (s : State) : Host.Outcome State Fault Refusal :=
  match fetch s with
  | none => .next s
  | some v =>
    match decode v with
    | .error _ => raised .illegal s
    | .ok i => exec i s

/-- One step: the first event of the queue; with no event, the engine's turn (log 1, 16). -/
def step (s : State) : Host.Outcome State Fault Refusal :=
  match s.inputs with
  | [] => engineTurn s
  | .engine :: rest => engineTurn { s with inputs := rest }
  | i :: rest => serveInput i { s with inputs := rest }

/-- `s` with the command word `w` (its first `nbits` bits, every higher bit of the CMD write 0) accepted and the engine's turn next,
so that the very next step runs it (log 1). -/
def State.withFetchWord (s : State) (nbits w : Nat) : State :=
  placeCommand (BitVec.ofNat 64 (w % 2 ^ nbits)) s

end Sys2Proof.Machine
end

