-- ==== Sys2Proof/Machine/HostProgram.lean ====
section
/-! DEFINITION. Host programs for the engine: assembler syntax, host operations and pseudo-instructions (30_encoding.md R123 to R125). The host's own
control flow stands outside the engine (R31, R162); every access goes through the engine's step. -/

namespace Sys2Proof.Machine

/-- The mnemonic of a command, in capitals (R118, R123). -/
def mnemonic : Instr → String
  | .nop => "NOP"
  | .clrstat => "CLRSTAT"
  | .smSeed => "SM_SEED"
  | .smSeedEnt => "SM_SEED_ENT"
  | .xoSetstate => "XO_SETSTATE"
  | .xoSeed => "XO_SEED"
  | .xoSeedEnt => "XO_SEED_ENT"
  | .next64 _ => "NEXT64"
  | .next32 _ => "NEXT32"
  | .fill _ _ => "FILL"
  | .uiSetlb => "UI_SETLB"
  | .uiSetub => "UI_SETUB"
  | .uiSetdef _ => "UI_SETDEF"
  | .uiSample _ => "UI_SAMPLE"
  | .uiSamplerange _ => "UI_SAMPLERANGE"
  | .udSetdef _ => "UD_SETDEF"
  | .udSample _ => "UD_SAMPLE"

/-- The `gen` of R123 with the spelling of GSEL `00` that the command uses (`def` on sampling commands, `none` on SETDEF commands). -/
def genName (zero : String) : GSel → String
  | .dflt => zero
  | .sm => "sm"
  | .xo => "xo"

/-- A command as a line of assembler: `MNEMONIC [gen] [, len]` (R123). -/
def assemblerLine (i : Instr) : String :=
  match i with
  | .nop => mnemonic i
  | .clrstat => mnemonic i
  | .smSeed => mnemonic i
  | .smSeedEnt => mnemonic i
  | .xoSetstate => mnemonic i
  | .xoSeed => mnemonic i
  | .xoSeedEnt => mnemonic i
  | .next64 g => mnemonic i ++ " " ++ genName "def" g
  | .next32 g => mnemonic i ++ " " ++ genName "def" g
  | .fill g n => mnemonic i ++ " " ++ genName "def" g ++ ", " ++ toString n.toNat
  | .uiSetlb => mnemonic i
  | .uiSetub => mnemonic i
  | .uiSetdef g => mnemonic i ++ " " ++ genName "none" g
  | .uiSample g => mnemonic i ++ " " ++ genName "def" g
  | .uiSamplerange g => mnemonic i ++ " " ++ genName "def" g
  | .udSetdef g => mnemonic i ++ " " ++ genName "none" g
  | .udSample g => mnemonic i ++ " " ++ genName "def" g

/-- The lines of a host program (R124). Host variables and labels are numbers. `issue` takes the 64-bit value written, so that a raw word
can be issued too (95_test_vectors.md P4). -/
inductive HostLine where
  | wr (r : Reg) (v : Word)
  | issue (v : Word)
  | rd (hv : Nat) (r : Reg)
  | label (l : Nat)
  | bnz (hv : Nat) (mask : Word) (l : Nat)
  deriving DecidableEq, Repr

/-- `ISSUE cmd`: the encoded command, zero-extended (R124). -/
def issueCmd (i : Instr) : HostLine := .issue (encode i)

/-- `WAIT` (R125), with the fresh label `l` and the host temporary `t`. -/
def waitLines (l t : Nat) : List HostLine := [.label l, .rd t .status, .bnz t 1 l]

/-- `DO cmd` (R125). -/
def doLines (i : Instr) (l t : Nat) : List HostLine := issueCmd i :: waitLines l t

/-- `DO1 cmd, a0` (R125). -/
def do1Lines (i : Instr) (a0 : Word) (l t : Nat) : List HostLine := .wr .arg0 a0 :: doLines i l t

/-- `DO2 cmd, a0, a1` (R125). -/
def do2Lines (i : Instr) (a0 a1 : Word) (l t : Nat) : List HostLine := .wr .arg0 a0 :: .wr .arg1 a1 :: doLines i l t

/-- `SET_BOUNDS lb, ub` (R125), with the fresh labels `l`, `l + 1` and `l + 2`. -/
def setBoundsLines (lb ub : Half) (l t : Nat) : List HostLine :=
  do1Lines .uiSetlb 0x80000000 l t ++ do1Lines .uiSetub (zext64 ub) (l + 1) t ++ do1Lines .uiSetlb (zext64 lb) (l + 2) t

/-- `CHECK` (R125). -/
def checkLines (t : Nat) : List HostLine := [.rd t .status]

/-- The host: its program, its own program counter (outside the engine, R31), and its variables, newest value first. -/
structure HostAgent where
  lines : List HostLine
  pc : Nat
  vars : List (Nat × Word)
  deriving DecidableEq, Repr

/-- The value of a host variable; 0 for one never read into (log 21). -/
def HostAgent.value (h : HostAgent) (hv : Nat) : Word :=
  match h.vars.find? (fun p => p.1 == hv) with
  | some p => p.2
  | none => 0

/-- The place of a label: the index of its line. DESIGN CHOICE (log 21): the spec is silent on a label that stands on two lines or on none. The first of several
lines is taken, and the end of the program when there is none. -/
def HostAgent.place (h : HostAgent) (l : Nat) : Nat := h.lines.findIdx (fun x => x == .label l)

/-- The host with its program counter at the next line. -/
def HostAgent.advance (h : HostAgent) : HostAgent := { h with pc := h.pc + 1 }

/-- A host access: the engine's step with the access at the head of its queue. -/
def access (a : Input) (s : State) : Result := step { s with inputs := a :: s.inputs }

/-- The host and the engine together. -/
abbrev SystemResult := Host.Outcome (HostAgent × State) Fault Refusal

/-- The host's line done, with the engine's result. -/
def withHost (h : State → HostAgent) (r : Result) : SystemResult :=
  match r with
  | .next s => .next (h s, s)
  | .fault e => .fault e
  | .refused e => .refused e

/-- One line of the host's program (R124), each access at the offset of its register in the window (R70). Past the last line the host does nothing. -/
def hostTurn (h : HostAgent) (s : State) : SystemResult :=
  match h.lines[h.pc]? with
  | none => .next (h, s)
  | some (.wr r v) => withHost (fun _ => h.advance) (access (.write (s.engineBase + r.offset) 8 v) s)
  | some (.issue v) => withHost (fun _ => h.advance) (access (.write (s.engineBase + Reg.cmd.offset) 8 v) s)
  | some (.rd hv r) =>
    withHost (fun t => { h.advance with vars := (hv, t.readData.headD 0) :: h.vars }) (access (.read (s.engineBase + r.offset) 8) s)
  | some (.label _) => .next (h.advance, s)
  | some (.bnz hv mask l) => .next (if h.value hv &&& mask ≠ 0 then { h with pc := h.place l } else h.advance, s)

/-- A turn of the engine, the host standing still. -/
def engineMove (h : HostAgent) (s : State) : SystemResult := withHost (fun _ => h) (access .engine s)

end Sys2Proof.Machine
end

