-- ==== Sys2Proof/Safety.lean ====
section
/-! DEFINITION. What claims about the engine speak of: the invariant of its states, safe events, the command table as R118 lists it,
streams of draws, and the value of a binary64 encoding. -/

namespace Sys2Proof.Safety

open Sys2Proof.Machine

/-- The state words of Xoroshiro128+ are not both zero (10_state.md R35). -/
def XoNonzero (r : GenRegs) : Prop := ¬(r.xoS1 = 0 ∧ r.xoS2 = 0)

/-- The invariant of the engine's states: the bounds are ordered (R38); a seeded Xoroshiro128+ is not in the zero state, neither in its registers nor
in a pending update (R35); a facility found unavailable has been initialised (R46, R47);
a word is requested only of a facility that has been initialised and found available (R98). -/
structure EngineInv (s : State) : Prop where
  bounds : s.lb.toInt ≤ s.ub.toInt
  xo : s.xoV = true → XoNonzero s.gens
  xoPending : ∀ f r, s.inflight = some f → f.pending = some r → s.xoV = true → XoNonzero r
  entropy : s.efatal = true → s.entInit = true
  request : s.entReq = true → s.entInit = true ∧ s.efatal = false

/-- An event on which the run does not stop, with the window at `base`: not a host access outside the window, narrow or misaligned (20_memory.md R70, R72). -/
def SafeInput (base : Nat) : Input → Prop
  | .read addr width => ∃ off, addr = base + off ∧ off < windowBytes ∧ width = 8 ∧ off % 8 = 0
  | .write addr width _ => ∃ off, addr = base + off ∧ off < windowBytes ∧ width = 8 ∧ off % 8 = 0
  | .entAvail _ => True
  | .entWord _ => True
  | .engine => True
  | .reset => True

/-- The next step is a turn of the engine: no event stands in the queue, or the engine's turn is the first (log 1, 16). -/
def EngineMoves (s : State) : Prop := s.inputs = [] ∨ ∃ rest, s.inputs = .engine :: rest

/-- A row of the opcode map as the table of R118 prints it: OPC, the legal GSEL values, and whether LEN may be nonzero. -/
structure TableRow where
  opc : Nat
  gsel : List Nat
  len : Bool

/-- The table of R118. -/
def opcodeMap : List TableRow :=
  [⟨0x00, [0], false⟩, ⟨0x01, [0], false⟩, ⟨0x10, [0], false⟩, ⟨0x11, [0], false⟩, ⟨0x20, [0], false⟩,
   ⟨0x21, [0], false⟩, ⟨0x22, [0], false⟩, ⟨0x30, [1, 2], false⟩, ⟨0x31, [1, 2], false⟩, ⟨0x32, [1, 2], true⟩,
   ⟨0x40, [0], false⟩, ⟨0x41, [0], false⟩, ⟨0x42, [0, 1, 2], false⟩, ⟨0x43, [0, 1, 2], false⟩,
   ⟨0x44, [0, 1, 2], false⟩, ⟨0x50, [0, 1, 2], false⟩, ⟨0x51, [0, 1, 2], false⟩]

/-- A CMD write that R119 does not send to ILLEGAL, said with the arithmetic of its bit positions (R111, R112). -/
def LegalWrite (v : Word) : Prop :=
  v.toNat / 2 ^ 32 = 0 ∧ v.toNat / 2 ^ 10 % 2 ^ 6 = 0 ∧
    ∃ row ∈ opcodeMap, row.opc = v.toNat % 2 ^ 8 ∧ v.toNat / 2 ^ 8 % 2 ^ 2 ∈ row.gsel ∧
      (row.len = false → v.toNat / 2 ^ 16 % 2 ^ 16 = 0)

/-- The state words after `n` draws of the generator `g` (40_execution.md R157). -/
def drawState (g : Gen) (r : GenRegs) : Nat → GenRegs
  | 0 => r
  | n + 1 => (draw64 g (drawState g r n)).1

/-- The output of draw number `n + 1` of the generator `g` from the state words `r`. -/
def drawOutput (g : Gen) (r : GenRegs) (n : Nat) : Word := (draw64 g (drawState g r n)).2

/-- `exec` of one command `n` times, each time from the state the one before left. -/
def execTimes (i : Instr) : Nat → State → Result
  | 0, s => .next s
  | n + 1, s =>
    match exec i s with
    | .next t => execTimes i n t
    | .fault e => .fault e
    | .refused e => .refused e

/-- `i` samples an integer between `lb` and `ub` in the state `s`, with the GSEL value `gsel`: UI_SAMPLE with LB and UB (R248),
UI_SAMPLERANGE with its operands (R249). -/
def Samples (i : Instr) (s : State) (gsel : GSel) (lb ub : Half) : Prop :=
  (i = .uiSample gsel ∧ lb = s.lb ∧ ub = s.ub) ∨
    (i = .uiSamplerange gsel ∧ lb = trunc32 s.a0 ∧ ub = trunc32 s.a1)

/-- The entropy facility may be used (20_memory.md R98): not found unavailable, and initialised or available now. -/
def EntropyUsable (s : State) : Prop := s.efatal = false ∧ (s.entInit = true ∨ s.entAvail = true)

/-- NULL_GENERATOR, for the commands and the GSEL value that can raise it (60_exceptions.md R302). -/
def nullIfDefault (gsel : GSel) : List ErrCode := if gsel = .dflt then [.nullGenerator] else []

/-- The codes a command may raise (R302). ILLEGAL is raised before there is a command. -/
def mayRaise : Instr → List ErrCode
  | .nop => []
  | .clrstat => []
  | .smSeed => []
  | .smSeedEnt => [.entropyUnavailable]
  | .xoSetstate => [.zeroState]
  | .xoSeed => []
  | .xoSeedEnt => [.entropyUnavailable]
  | .next64 _ => [.unseeded]
  | .next32 _ => [.unseeded]
  | .fill _ _ => [.badLength, .unseeded]
  | .uiSetlb => [.invalidRange]
  | .uiSetub => [.invalidRange]
  | .uiSetdef _ => []
  | .uiSample gsel => .unseeded :: nullIfDefault gsel
  | .uiSamplerange gsel => .invalidRange :: .unseeded :: nullIfDefault gsel
  | .udSetdef _ => []
  | .udSample gsel => .unseeded :: nullIfDefault gsel

/-- The commands that write RES when they finish normally (R154). -/
def writesRes : Instr → Bool
  | .nop => false
  | .clrstat => false
  | .smSeed => false
  | .smSeedEnt => false
  | .xoSetstate => false
  | .xoSeed => false
  | .xoSeedEnt => false
  | .next64 _ => true
  | .next32 _ => true
  | .fill _ _ => false
  | .uiSetlb => false
  | .uiSetub => false
  | .uiSetdef _ => false
  | .uiSample _ => true
  | .uiSamplerange _ => true
  | .udSetdef _ => false
  | .udSample _ => true

/-- The commands that set SM_V (R36). -/
def seedsSm (i : Instr) : Prop := i = .smSeed ∨ i = .smSeedEnt

/-- The commands that set XO_V (R36). -/
def seedsXo (i : Instr) : Prop := i = .xoSetstate ∨ i = .xoSeed ∨ i = .xoSeedEnt

/-- The commands that draw from the generator `g` in the state `s`, by their GSEL value and the default of their family (40_execution.md R155): FILL, NEXT64 and NEXT32
have no default. -/
def drawsFrom (g : Gen) (i : Instr) (s : State) : Prop :=
  ∃ gsel, ((i = .next64 gsel ∨ i = .next32 gsel ∨ ∃ n, i = .fill gsel n) ∧ gselTarget gsel none = some g) ∨
    ((i = .uiSample gsel ∨ i = .uiSamplerange gsel) ∧ gselTarget gsel s.uiDef = some g) ∨
    (i = .udSample gsel ∧ gselTarget gsel s.udDef = some g)

/-- The biased exponent field of a binary64 encoding (00_scope.md R12). -/
def f64Exponent (b : Word) : Nat := (b.extractLsb' 52 11).toNat

/-- The fraction field of a binary64 encoding (R12). -/
def f64Fraction (b : Word) : Nat := (b.extractLsb' 0 52).toNat

/-- The value of a finite binary64 encoding (R12): sign, exponent and fraction read as IEEE-754 reads them. An encoding with the top exponent
(an infinity or a NaN) has no value. PRESUMED: the layout is general knowledge, as the spec says (log 13). -/
def f64Value (b : Word) : Option ℚ :=
  let sign : ℚ := if b.getLsbD 63 then -1 else 1
  if f64Exponent b = 0x7FF then none
  else if f64Exponent b = 0 then some (sign * f64Fraction b / 2 ^ 1074)
  else some (sign * (2 ^ 52 + f64Fraction b) * 2 ^ f64Exponent b / 2 ^ 1075)

end Sys2Proof.Safety
end

