-- ==== Sys2Proof/Certificates/Slice0/Obligations.lean ====
section
/-! DEFINITION. Statements about the engine, for the provers. Each docstring names the rules of spec/ it comes from. -/

open Sys2Proof Sys2Proof.Machine Sys2Proof.Safety

/-! ## Encoding -/

/-- R110, R111, R114, R116, R118: decoding the encoding of a well-formed command gives it back, with every GSEL and every LEN. -/
def Obligations.DecodeOfEncodeIsTheCommand : Prop :=
  ∀ i : Instr, i.wf = true → decode (encode i) = .ok i

/-- R115, R118, R119: a CMD write that decodes is the encoding of what it decodes to, so each command has one word and no bit is ignored. -/
def Obligations.EncodeOfDecodeIsTheWord : Prop :=
  ∀ (v : Word) (i : Instr), decode v = .ok i → i.wf = true ∧ encode i = v

/-- R119: a CMD write decodes exactly when it passes the checks of R119 against the table of R118, and the command read has the
OPC, GSEL and LEN of its bits. -/
def Obligations.DecodeFollowsTheOpcodeMap : Prop :=
  ∀ v : Word, ((∃ i, decode v = .ok i) ↔ LegalWrite v) ∧
    ∀ i, decode v = .ok i →
      i.opc.toNat = v.toNat % 2 ^ 8 ∧ i.gsel.bits.toNat = v.toNat / 2 ^ 8 % 2 ^ 2 ∧ i.len.toNat = v.toNat / 2 ^ 16 % 2 ^ 16

/-- R123 and 95_test_vectors.md V-EN-1 to V-EN-15: words the spec writes out: NEXT64 xo, FILL sm 10, UI_SAMPLE def, UI_SETDEF none and XO_SEED decode to
those commands; a GSEL of 00 or 11 on NEXT64, a reserved bit, bit 32, an unassigned OPC and a LEN on UI_SAMPLE are illegal. -/
def Obligations.WordsOfTheSpecDecode : Prop :=
  decode 0x00000230 = .ok (.next64 .xo) ∧ decode 0x000A0132 = .ok (.fill .sm 10) ∧ decode 0x00000043 = .ok (.uiSample .dflt) ∧
  decode 0x00000042 = .ok (.uiSetdef .dflt) ∧ decode 0x00000021 = .ok .xoSeed ∧ decode 0x00000030 = .error .gsel ∧
  decode 0x00000330 = .error .gsel ∧ decode 0x00000430 = .error .reservedBits ∧ decode 0x100000130 = .error .upperHalf ∧
  decode 0x000000FF = .error .opcode ∧ decode 0x00010043 = .error .len

/-! ## The command cycle and the whole machine -/

/-- R150, R151, R158: when the next step is a turn of the engine and the command in flight decodes to `i`, the step is `exec i`, with the event that gave the
engine its turn removed from the queue (log 1); and the operands that `exec` reads are those of the in-flight record. -/
def Obligations.StepRunsTheDecodedCommand : Prop :=
  ∀ (s : State) (f : InFlight) (i : Instr), EngineMoves s → s.inflight = some f → decode f.word = .ok i →
    step s = exec i { s with inputs := s.inputs.tail } ∧ s.a0 = f.a0 ∧ s.a1 = f.a1

/-- R120: an illegal command word raises ILLEGAL, and changes no state but ERR and the end of the command. The illegal words are those the checks of R119
and the table of R118 do not pass. -/
def Obligations.IllegalWordRaisesIllegal : Prop :=
  ∀ (s : State) (f : InFlight), EngineMoves s → s.inflight = some f → ¬ LegalWrite f.word →
    step s = .next { s with err := .illegal, inflight := none, inputs := s.inputs.tail }

/-- R318: when BUSY = 0 the engine is idle and keeps all state. -/
def Obligations.IdleEngineKeepsAllState : Prop :=
  ∀ s : State, EngineMoves s → s.busy = false → step s = .next { s with inputs := s.inputs.tail }

/-- R70, R72: a step goes on exactly when its event is safe: the run stops only on a host access outside the window, or narrow or misaligned. -/
def Obligations.StepStopsOnlyOnUndefinedAccesses : Prop :=
  ∀ s : State, (∃ t, step s = .next t) ↔ ∀ i rest, s.inputs = i :: rest → SafeInput s.engineBase i

/-- R72: an access of another width, or misaligned, is refused by the name the rule gives. -/
def Obligations.NarrowOrMisalignedAccessIsRefused : Prop :=
  ∀ (s : State) (off width : Nat) (v : Word) (rest : List Input), off < 4096 → width ≠ 8 ∨ off % 8 ≠ 0 →
    step { s with inputs := .read (s.engineBase + off) width :: rest } = .refused .narrowOrMisalignedAccess ∧
    step { s with inputs := .write (s.engineBase + off) width v :: rest } = .refused .narrowOrMisalignedAccess

/-- R70: the window is the 4096 bytes at ENGINE_BASE, whatever the base: an access at an address outside it faults by name (the fault is the model's choice:
log 11), and no step, a reset included, moves the window. -/
def Obligations.TheWindowStandsAtEngineBase : Prop :=
  (∀ (s : State) (addr width : Nat) (v : Word) (rest : List Input), addr < s.engineBase ∨ s.engineBase + 4096 ≤ addr →
    step { s with inputs := .read addr width :: rest } = .fault .outsideWindow ∧
    step { s with inputs := .write addr width v :: rest } = .fault .outsideWindow) ∧
  ∀ s t : State, step s = .next t → t.engineBase = s.engineBase

/-- R38, R35: the invariant of `StepKeepsInv` holds after reset, whatever free values the reset takes (log 4). -/
def Obligations.ResetSatisfiesInv : Prop :=
  EngineInv State.reset ∧ ∀ c, EngineInv (State.resetAt c)

/-- R38, R35, R203, R208, R46, R47, R98: every step, of whatever event or command, keeps the invariant: the bounds are ordered; a seeded Xoroshiro128+ is not in the
zero state, neither in its registers nor in the pending update of the command in flight; EFATAL is set only with ENTINIT; and ENT_REQ is 1 only with ENTINIT set and
EFATAL clear. -/
def Obligations.StepKeepsInv : Prop :=
  ∀ s t : State, EngineInv s → step s = .next t → EngineInv t

/-- R46, R47, R160, R340: EFATAL and ENTINIT, once set, stay set on every step but a reset. -/
def Obligations.OnlyResetClearsEntropyFlags : Prop :=
  ∀ s t : State, step s = .next t → s.inputs.head? ≠ some .reset →
    (s.efatal = true → t.efatal = true) ∧ (s.entInit = true → t.entInit = true)

/-- R36: no command clears a seeded flag, and one becomes set only when a seeding command of that generator completes normally; such a
completion sets it. -/
def Obligations.SeededFlagsAreSetOnlyBySeeding : Prop :=
  ∀ (i : Instr) (s t : State) (f : InFlight), s.inflight = some f → exec i s = .next t →
    (s.smV = true → t.smV = true) ∧ (s.xoV = true → t.xoV = true) ∧
    (s.smV = false → t.smV = true → seedsSm i ∧ t.inflight = none ∧ t.err = .ok) ∧
    (s.xoV = false → t.xoV = true → seedsXo i ∧ t.inflight = none ∧ t.err = .ok) ∧
    (t.inflight = none → t.err = .ok → (seedsSm i → t.smV = true) ∧ (seedsXo i → t.xoV = true))

/-- R34: no host access depends on or changes the generators' state words, nor the pending update of the command in flight:
with other values of both, an access returns the same data and leaves the rest of the state the same. -/
def Obligations.HostAccessesDoNotSeeGeneratorState : Prop :=
  ∀ (s t : State) (r : GenRegs) (a : Input) (rest : List Input),
    (∃ addr width, a = .read addr width) ∨ (∃ addr width v, a = .write addr width v) →
    step { s with inputs := a :: rest } = .next t →
    t.gens = s.gens ∧ step { s with inputs := a :: rest, gens := r } = .next { t with gens := r } ∧
    ∀ f p, s.inflight = some f →
      step { s with inputs := a :: rest, inflight := some { f with pending := p } } =
        .next { t with inflight := t.inflight.map fun g => { g with pending := p } }

/-- R154: a turn of the engine changes RES only when the command in flight finishes normally and is one of NEXT64, NEXT32, UI_SAMPLE, UI_SAMPLERANGE and
UD_SAMPLE; no other command and no raising one does. -/
def Obligations.ResIsWrittenOnlyByTheFiveCommands : Prop :=
  ∀ s t : State, EngineMoves s → step s = .next t → t.res ≠ s.res →
    t.err = .ok ∧ t.inflight = none ∧ ∃ f i, s.inflight = some f ∧ decode f.word = .ok i ∧ writesRes i = true

/-- R305: a command that raises changes no engine state except ERR, BUSY and, for ENTROPY_UNAVAILABLE, ENTINIT and EFATAL. -/
def Obligations.ErrorsArePrecise : Prop :=
  ∀ (s t : State) (f : InFlight), EngineMoves s → s.inflight = some f → step s = .next t → t.inflight = none → t.err ≠ .ok →
    t = { s with err := t.err, inflight := none, inputs := s.inputs.tail, entInit := t.entInit, efatal := t.efatal } ∧
    (t.err ≠ .entropyUnavailable → t.entInit = s.entInit ∧ t.efatal = s.efatal)

/-- R302: a well-formed command completes with OK or with a code of its own row. -/
def Obligations.CommandsRaiseOnlyTheirCodes : Prop :=
  ∀ (i : Instr) (s t : State) (f : InFlight), i.wf = true → s.inflight = some f → exec i s = .next t → t.inflight = none →
    t.err = .ok ∨ t.err ∈ mayRaise i

/-- R32, R33, R37, R39, R40, R42, R45: what no command but its owner writes: ARG0 and ARG1, the bounds, the defaults, FBUF, OVR, ENTINIT and EFATAL; SM_S changes
only under a command that seeds SplitMix64 or draws from it, XO_S1 and XO_S2 only under one that seeds Xoroshiro128+ or draws from it. No command touches what is the
model's own or the port's: the queue of events (log 1), ENT_AVAIL and ENT_DATA (log 7; only the entropy commands consume a word), ENGINE_BASE (log 11), the data
returned to the host (log 15) and the counter of free values (log 6). -/
def Obligations.CommandsWriteOnlyWhatTheyOwn : Prop :=
  ∀ (i : Instr) (s t : State), exec i s = .next t →
    t.arg0 = s.arg0 ∧ t.arg1 = s.arg1 ∧ t.inputs = s.inputs ∧ t.readData = s.readData ∧ t.freeCtr = s.freeCtr ∧
    t.entAvail = s.entAvail ∧ t.entData = s.entData ∧ t.engineBase = s.engineBase ∧
    (t.entValid ≠ s.entValid ∨ t.entInit ≠ s.entInit ∨ t.efatal ≠ s.efatal → i = .smSeedEnt ∨ i = .xoSeedEnt) ∧
    (t.lb ≠ s.lb → i = .uiSetlb) ∧ (t.ub ≠ s.ub → i = .uiSetub) ∧
    (t.uiDef ≠ s.uiDef → ∃ g, i = .uiSetdef g) ∧ (t.udDef ≠ s.udDef → ∃ g, i = .udSetdef g) ∧
    (t.fbuf ≠ s.fbuf → ∃ g n, i = .fill g n) ∧ (t.ovr ≠ s.ovr → i = .clrstat) ∧
    (t.gens.smS ≠ s.gens.smS → seedsSm i ∨ drawsFrom .sm i s) ∧
    (t.gens.xoS1 ≠ s.gens.xoS1 ∨ t.gens.xoS2 ≠ s.gens.xoS2 → seedsXo i ∨ drawsFrom .xo i s)

/-! ## The commands -/

/-- R159, R160: NOP only completes; CLRSTAT clears OVR. Nothing else changes. -/
def Obligations.NopAndClrstatComplete : Prop :=
  ∀ s : State,
    exec .nop s = .next { s with err := .ok, inflight := none } ∧
    exec .clrstat s = .next { s with ovr := false, err := .ok, inflight := none }

/-- R185, R187: SM_SEED puts the operand into SM_S, sets SM_V and takes no draw. Nothing else changes. -/
def Obligations.SmSeedSetsTheState : Prop :=
  ∀ s : State, exec .smSeed s =
    .next { s with gens := { s.gens with smS := s.a0 }, smV := true, err := .ok, inflight := none }

/-- R98: an entropy command that has not requested a word yet and whose check fails raises ENTROPY_UNAVAILABLE and leaves ENTINIT and EFATAL written, with nothing
else changed: when EFATAL is set already, and when the facility is not available at the first use. -/
def Obligations.EntropyCommandsRaiseWhenUnavailable : Prop :=
  ∀ (i : Instr) (s : State), i = .smSeedEnt ∨ i = .xoSeedEnt → s.entReq = false →
    (s.efatal = true → exec i s = .next { s with err := .entropyUnavailable, inflight := none }) ∧
    (s.efatal = false → s.entInit = false → s.entAvail = false →
      exec i s = .next { s with entInit := true, efatal := true, err := .entropyUnavailable, inflight := none })

/-- R96, R97, R98: with the facility usable, the first turn of an entropy command raises ENT_REQ with ENTINIT set, whether or not ENT_VALID is 1, and takes no word; with
ENT_REQ raised and no word delivered, a turn changes nothing. (ENTINIT is set in the turn of the check: log 8; ENT_REQ is a field of the command: log 9.) -/
def Obligations.EntropyCommandsRequestAWordAndWait : Prop :=
  ∀ (i : Instr) (s : State) (f : InFlight), i = .smSeedEnt ∨ i = .xoSeedEnt → s.inflight = some f →
    (s.entReq = false → EntropyUsable s →
      ∃ t, exec i s = .next t ∧ t = { s with entInit := true, inflight := some { f with waiting := true } } ∧ t.entReq = true ∧ t.busy = true) ∧
    (s.entReq = true → s.entValid = false → exec i s = .next s)

/-- R186, R96: with ENT_REQ raised and a word delivered, SM_SEED_ENT completes as SM_SEED does with that word; the word is consumed (log 7). From acceptance, with the
facility usable and the word there, two turns complete it, and ENTINIT is set. Nothing else changes. -/
def Obligations.SmSeedEntCompletesWithTheWord : Prop :=
  ∀ (s : State) (f : InFlight), s.inflight = some f → s.entValid = true →
    (s.entReq = true → exec .smSeedEnt s = .next { s with
      gens := { s.gens with smS := s.entData }, smV := true, entValid := false, err := .ok, inflight := none }) ∧
    (s.entReq = false → EntropyUsable s → execTimes .smSeedEnt 2 s = .next { s with
      gens := { s.gens with smS := s.entData }, smV := true, entInit := true, entValid := false, err := .ok, inflight := none })

/-- R207, R96: with ENT_REQ raised and a word delivered, XO_SEED_ENT completes, and its end state is that of XO_SEED with the word as its operand, but for the consumed
word (log 7). From acceptance, with the facility usable and the word there, two turns complete it, and ENTINIT is set. -/
def Obligations.XoSeedEntIsXoSeedOfTheWord : Prop :=
  ∀ (s : State) (f : InFlight), s.inflight = some f → s.entValid = true →
    ∃ t, exec .xoSeed { s with inflight := some { f with a0 := s.entData } } = .next t ∧
      t.err = .ok ∧ t.inflight = none ∧ t.xoV = true ∧
      (s.entReq = true → exec .xoSeedEnt s = .next { t with entValid := false }) ∧
      (s.entReq = false → EntropyUsable s → execTimes .xoSeedEnt 2 s = .next { t with entInit := true, entValid := false })

/-- R205, R204: XO_SETSTATE with the operands not both 0 sets the state words, advances once and sets XO_V, writing no output; with both 0 it raises
ZERO_STATE. Nothing else changes. -/
def Obligations.XoSetstateSetsAndDiscards : Prop :=
  ∀ s : State,
    (¬(s.a0 = 0 ∧ s.a1 = 0) → exec .xoSetstate s = .next { s with
      gens := { s.gens with xoS1 := (xoStep s.a0 s.a1).1, xoS2 := (xoStep s.a0 s.a1).2.1 }, xoV := true, err := .ok, inflight := none }) ∧
    (s.a0 = 0 ∧ s.a1 = 0 → exec .xoSetstate s = .next { s with err := .zeroState, inflight := none })

/-- R206: XO_SEED expands the operand by two SplitMix64 outputs, the first into state word 1 and the second into state word 2, advances once, and
sets XO_V. SM_S, SM_V and everything else are unchanged. -/
def Obligations.XoSeedExpandsTheSeed : Prop :=
  ∀ (s : State) (w1 w2 : Word), w1 = smMix (s.a0 + gamma) → w2 = smMix (s.a0 + gamma + gamma) →
    exec .xoSeed s = .next { s with
      gens := { s.gens with xoS1 := (xoStep w1 w2).1, xoS2 := (xoStep w1 w2).2.1 }, xoV := true, err := .ok, inflight := none }

/-- R220, R221: with a seeded generator, NEXT64 writes one whole draw to RES and NEXT32 its low 32 bits zero-extended; the generator advances once.
Nothing else changes. -/
def Obligations.Next64AndNext32TakeOneDraw : Prop :=
  ∀ (gsel : GSel) (g : Gen) (s : State), gselTarget gsel none = some g → s.seeded g = true →
    exec (.next64 gsel) s = .next { s with
      gens := (draw64 g s.gens).1, res := (draw64 g s.gens).2, err := .ok, inflight := none } ∧
    ∃ t, exec (.next32 gsel) s = .next t ∧
      t = { s with gens := (draw64 g s.gens).1, res := t.res, err := .ok, inflight := none } ∧
      t.res.toNat = (draw64 g s.gens).2.toNat % 2 ^ 32

/-- R222: FILL of at most 256 bytes with a seeded generator takes ceil(n / 8) draws; byte i below n of FBUF is byte i mod 8 of draw i / 8, low byte first;
the bytes from n on and everything else are unchanged. -/
def Obligations.FillWritesTheDrawsLittleEndian : Prop :=
  ∀ (gsel : GSel) (g : Gen) (n : BitVec 16) (s : State), gselTarget gsel none = some g → s.seeded g = true → n.toNat ≤ 256 →
    ∃ t, exec (.fill gsel n) s = .next t ∧
      t = { s with gens := drawState g s.gens ((n.toNat + 7) / 8), fbuf := t.fbuf, err := .ok, inflight := none } ∧
      (∀ i : Fin 256, i.val < n.toNat →
        (t.fbufByte i).toNat = (drawOutput g s.gens (i.val / 8)).toNat / 2 ^ (8 * (i.val % 8)) % 2 ^ 8) ∧
      (∀ i : Fin 256, n.toNat ≤ i.val → t.fbufByte i = s.fbufByte i)

/-- R224, R81: a FILL of 8m bytes advances the generator as m NEXT64 commands do, and FBUF word j is the RES of the (j+1)-th of them. -/
def Obligations.FillOfWholeWordsEqualsNext64s : Prop :=
  ∀ (gsel : GSel) (g : Gen) (m : Nat) (s : State), gselTarget gsel none = some g → s.seeded g = true → m ≤ 32 →
    ∃ t u, exec (.fill gsel (BitVec.ofNat 16 (8 * m))) s = .next t ∧ execTimes (.next64 gsel) m s = .next u ∧ t.gens = u.gens ∧
      ∀ j : Fin 32, j.val < m → ∃ v, execTimes (.next64 gsel) (j.val + 1) s = .next v ∧ t.fbufWord j = v.res

/-- R223: a FILL of n1 bytes and then one of n2 leave the bytes of one FILL of n1 + n2 when n1 is a multiple of 8: the first n1 after the first FILL, the
other n2 after the second; the generator ends in the same state. -/
def Obligations.SplitFillAtAWordBoundary : Prop :=
  ∀ (gsel : GSel) (g : Gen) (n1 n2 : Nat) (s : State), gselTarget gsel none = some g → s.seeded g = true →
    n1 % 8 = 0 → n1 + n2 ≤ 256 →
    ∃ t1 t2 t, exec (.fill gsel (BitVec.ofNat 16 n1)) s = .next t1 ∧ exec (.fill gsel (BitVec.ofNat 16 n2)) t1 = .next t2 ∧
      exec (.fill gsel (BitVec.ofNat 16 (n1 + n2))) s = .next t ∧ t2.gens = t.gens ∧
      (∀ i : Fin 256, i.val < n1 → t.fbufByte i = t1.fbufByte i) ∧
      (∀ i j : Fin 256, j.val < n2 → i.val = n1 + j.val → t.fbufByte i = t2.fbufByte j)

/-- R240, R241: UI_SETLB and UI_SETUB write the low half of the operand as the bound when the bounds stay ordered (as signed 32-bit integers), and otherwise
raise INVALID_RANGE; nothing else changes. -/
def Obligations.SetBoundsCheckTheOrder : Prop :=
  ∀ (s : State) (v : Half), v = trunc32 s.a0 →
    (v.toInt ≤ s.ub.toInt → exec .uiSetlb s = .next { s with lb := v, err := .ok, inflight := none }) ∧
    (s.ub.toInt < v.toInt → exec .uiSetlb s = .next { s with err := .invalidRange, inflight := none }) ∧
    (s.lb.toInt ≤ v.toInt → exec .uiSetub s = .next { s with ub := v, err := .ok, inflight := none }) ∧
    (v.toInt < s.lb.toInt → exec .uiSetub s = .next { s with err := .invalidRange, inflight := none })

/-- R125: SET_BOUNDS, issued as host accesses from an idle state with ordered bounds, never raises and leaves the two bounds set. -/
def Obligations.SetBoundsSequenceNeverRaises : Prop :=
  ∀ (s : State) (lb ub : Half), s.inflight = none → s.lb.toInt ≤ s.ub.toInt → lb.toInt ≤ ub.toInt →
    s.inputs = [.write (s.engineBase + 0x010) 8 0x80000000, .write (s.engineBase + 0x000) 8 0x40, .engine,
      .write (s.engineBase + 0x010) 8 (zext64 ub), .write (s.engineBase + 0x000) 8 0x41, .engine,
      .write (s.engineBase + 0x010) 8 (zext64 lb), .write (s.engineBase + 0x000) 8 0x40, .engine] →
    ∃ t3 t6 t9, Host.Core.run core 3 s = .next t3 ∧ Host.Core.run core 6 s = .next t6 ∧ Host.Core.run core 9 s = .next t9 ∧
      t3.err = .ok ∧ t6.err = .ok ∧
      t9 = { s with lb := lb, ub := ub, arg0 := zext64 lb, err := .ok, inflight := none, inputs := [] }

/-- R242, R273: the SETDEF commands store none, SplitMix64 or Xoroshiro128+, seeded or not, each its own default; CFG shows it. Nothing else changes. -/
def Obligations.SetdefStoresTheDefault : Prop :=
  ∀ (gsel : GSel) (s : State), ∃ t u,
    exec (.uiSetdef gsel) s = .next t ∧ t = { s with uiDef := t.uiDef, err := .ok, inflight := none } ∧
    exec (.udSetdef gsel) s = .next u ∧ u = { s with udDef := u.udDef, err := .ok, inflight := none } ∧
    t.uiDef = (match gsel with | .dflt => none | .sm => some .sm | .xo => some .xo) ∧ u.udDef = t.uiDef ∧
    t.cfgWord.toNat % 4 = gsel.bits.toNat ∧ u.cfgWord.toNat / 4 % 4 = gsel.bits.toNat

/-- R248, R249, R245: one turn of UI_SAMPLE or UI_SAMPLERANGE with ordered bounds and a seeded generator takes one draw. If the draw is accepted, the
command completes with the sign-extended result; if it is rejected, the command stays in flight with the update pending, and nothing else changes. -/
def Obligations.IntegerSampleTakesOneDrawATurn : Prop :=
  ∀ (i : Instr) (gsel : GSel) (g : Gen) (lb ub : Half) (s : State), Samples i s gsel lb ub → lb.toInt ≤ ub.toInt →
    gselTarget gsel s.uiDef = some g → s.seeded g = true →
    (∀ v, uiAccept lb ub (draw64 g (s.workGens g)).2 = some v → ∃ t, exec i s = .next t ∧
      t = { s with gens := (draw64 g (s.workGens g)).1, res := t.res, err := .ok, inflight := none } ∧ t.res.toInt = v.toInt) ∧
    (uiAccept lb ub (draw64 g (s.workGens g)).2 = none → ∀ f, s.inflight = some f → exec i s = .next { s with
      inflight := some { f with draws := f.draws + 1, pending := some (draw64 g (s.workGens g)).1 } })

/-- R245, R306: from acceptance, a sampling command rejects the draws that are not below the limit one turn each, in order, and completes on the first that
is: when draws 0 to k − 1 are rejected and draw k accepted, k + 1 turns complete it, and until then only its in-flight record changes. -/
def Obligations.IntegerSampleTakesTheFirstAcceptedDraw : Prop :=
  ∀ (i : Instr) (gsel : GSel) (g : Gen) (lb ub v : Half) (k : Nat) (s : State) (f : InFlight),
    s.inputs = [] → s.inflight = some f → f.pending = none → decode f.word = .ok i →
    Samples i s gsel lb ub → lb.toInt ≤ ub.toInt → gselTarget gsel s.uiDef = some g → s.seeded g = true →
    (∀ j, j < k → uiAccept lb ub (drawOutput g s.gens j) = none) → uiAccept lb ub (drawOutput g s.gens k) = some v →
    (∀ j, j < k → Host.Core.run core (j + 1) s = .next { s with
      inflight := some { f with draws := f.draws + (j + 1), pending := some (drawState g s.gens (j + 1)) } }) ∧
    Host.Core.run core (k + 1) s = .next { s with
      gens := drawState g s.gens (k + 1), res := sext64 v, err := .ok, inflight := none }

/-- R253, R251: with SplitMix64 a sampling command completes within ((2^64 − 1) mod span) + 2 draws, which is at most span + 1, with a result between the
bounds. The draws are counted as turns of the engine, since the model takes one turn a draw (log 3). -/
def Obligations.SplitMixSamplingTerminates : Prop :=
  ∀ (i : Instr) (gsel : GSel) (lb ub : Half) (s : State) (f : InFlight),
    s.inputs = [] → s.inflight = some f → f.pending = none → decode f.word = .ok i →
    Samples i s gsel lb ub → lb.toInt ≤ ub.toInt → gselTarget gsel s.uiDef = some .sm → s.smV = true →
    ∃ (n : Nat) (v : Half) (t : State), n ≤ (2 ^ 64 - 1) % (uiSpan (uiRange lb ub)).toNat + 2 ∧
      (2 ^ 64 - 1) % (uiSpan (uiRange lb ub)).toNat + 2 ≤ (uiSpan (uiRange lb ub)).toNat + 1 ∧
      Host.Core.run core n s = .next t ∧ lb.toInt ≤ v.toInt ∧ v.toInt ≤ ub.toInt ∧
      t = { s with gens := drawState .sm s.gens n, res := sext64 v, err := .ok, inflight := none }

/-- R274: UD_SAMPLE with a seeded generator takes exactly one draw and writes UD_MAP of it to RES. Nothing else changes. -/
def Obligations.DoubleSampleTakesOneDraw : Prop :=
  ∀ (gsel : GSel) (g : Gen) (s : State), gselTarget gsel s.udDef = some g → s.seeded g = true →
    exec (.udSample gsel) s = .next { s with
      gens := (draw64 g s.gens).1, res := udMap (draw64 g s.gens).2, err := .ok, inflight := none }

/-- R114, R155, R304: GSEL `01` names SplitMix64, `10` Xoroshiro128+ and `00` the default, and a generator is seeded when its own flag is set; a drawing command whose
operands are valid raises NULL_GENERATOR when GSEL is `00` and no default is set, and UNSEEDED when the generator it resolves to is not seeded; nothing else changes. -/
def Obligations.GeneratorResolutionErrors : Prop :=
  ∀ (s : State) (gsel : GSel) (g : Gen) (n : BitVec 16),
    (∀ d, gselTarget .sm d = some .sm ∧ gselTarget .xo d = some .xo ∧ gselTarget .dflt d = d) ∧
    (s.seeded .sm = s.smV ∧ s.seeded .xo = s.xoV) ∧
    (s.uiDef = none → exec (.uiSample .dflt) s = .next { s with err := .nullGenerator, inflight := none }) ∧
    (s.uiDef = none → (trunc32 s.a0).toInt ≤ (trunc32 s.a1).toInt →
      exec (.uiSamplerange .dflt) s = .next { s with err := .nullGenerator, inflight := none }) ∧
    (s.udDef = none → exec (.udSample .dflt) s = .next { s with err := .nullGenerator, inflight := none }) ∧
    (s.seeded g = false → gselTarget gsel s.uiDef = some g →
      exec (.uiSample gsel) s = .next { s with err := .unseeded, inflight := none } ∧
      ((trunc32 s.a0).toInt ≤ (trunc32 s.a1).toInt →
        exec (.uiSamplerange gsel) s = .next { s with err := .unseeded, inflight := none })) ∧
    (s.seeded g = false → gselTarget gsel s.udDef = some g →
      exec (.udSample gsel) s = .next { s with err := .unseeded, inflight := none }) ∧
    (s.seeded g = false → gselTarget gsel none = some g →
      exec (.next64 gsel) s = .next { s with err := .unseeded, inflight := none } ∧
      exec (.next32 gsel) s = .next { s with err := .unseeded, inflight := none } ∧
      (n.toNat ≤ 256 → exec (.fill gsel n) s = .next { s with err := .unseeded, inflight := none }))

/-- R222, R249, R304: FILL of more than 256 bytes raises BAD_LENGTH and UI_SAMPLERANGE with lb > ub raises INVALID_RANGE, before their generator is looked at;
nothing else changes. -/
def Obligations.OperandChecksComeFirst : Prop :=
  ∀ (gsel : GSel) (n : BitVec 16) (s : State),
    (256 < n.toNat → exec (.fill gsel n) s = .next { s with err := .badLength, inflight := none }) ∧
    ((trunc32 s.a1).toInt < (trunc32 s.a0).toInt →
      exec (.uiSamplerange gsel) s = .next { s with err := .invalidRange, inflight := none })

/-! ## The datapaths -/

/-- R180, R181, R182: the SplitMix64 step adds GAMMA and mixes the updated state; SM_MIX is two rounds of xor-shift and multiply (shifts 30 and 27) and a
last xor-shift by 31; the constants are written out and the arithmetic is that of naturals modulo 2^64. R156: a draw of SplitMix64 applies the step to SM_S, returns
its output, and leaves XO_S1 and XO_S2. -/
def Obligations.SplitMixStepIsTheRulesArithmetic : Prop :=
  (∀ r : GenRegs, draw64 .sm r = ({ r with smS := (smStep r.smS).1 }, (smStep r.smS).2)) ∧
  ∀ s : Word, (smStep s).1.toNat = (0x9E3779B97F4A7C15 + s.toNat) % 2 ^ 64 ∧ (smStep s).2 = smMix (smStep s).1 ∧
    ∀ z z1 z2 : Word, z1.toNat = 0xBF58476D1CE4E5B9 * (z ^^^ (z >>> 30)).toNat % 2 ^ 64 →
      z2.toNat = 0x94D049BB133111EB * (z1 ^^^ (z1 >>> 27)).toNat % 2 ^ 64 → smMix z = z2 ^^^ (z2 >>> 31)

/-- R184: SM_MIX is a bijection, by steps that are bijections; exactly one state gives the output 0, and two consecutive outputs are never both 0. -/
def Obligations.SplitMixMixIsABijection : Prop :=
  (∀ k : Nat, 1 ≤ k → Function.Bijective fun z : Word => z ^^^ (z >>> k)) ∧
  Function.Bijective (fun z : Word => z * mix1) ∧ Function.Bijective (fun z : Word => z * mix2) ∧
  Function.Bijective smMix ∧
  (∀ (r : GenRegs) (m n : Nat), m < 2 ^ 64 → n < 2 ^ 64 → drawOutput .sm r m = drawOutput .sm r n → m = n) ∧
  (∀ (r : GenRegs) (w : Word), ∃ n, n < 2 ^ 64 ∧ drawOutput .sm r n = w) ∧
  (∀ z : Word, smMix z = 0 ↔ z = 0) ∧ (∀ s : Word, ((smStep s).2 = 0 ↔ s = 0x61C8864680B583EB) ∧ ((smStep s).1 = 0 ↔ s = 0x61C8864680B583EB)) ∧
  (∀ s : Word, ¬((smStep s).2 = 0 ∧ (smStep (smStep s).1).2 = 0))

/-- R183: after n draws SM_S is s + n·GAMMA modulo 2^64, the states of 2^64 consecutive draws are distinct, and the period is exactly 2^64. -/
def Obligations.SplitMixPeriodIsTwoToThe64 : Prop :=
  ∀ r : GenRegs,
    (∀ n, (drawState .sm r n).smS = r.smS + gamma * BitVec.ofNat 64 n) ∧
    (∀ a m n, m < 2 ^ 64 → n < 2 ^ 64 → (drawState .sm r (a + m)).smS = (drawState .sm r (a + n)).smS → m = n) ∧
    (∀ n, (drawState .sm r n).smS = r.smS ↔ n % 2 ^ 64 = 0)

/-- R200, R201, R10: the Xoroshiro128+ step with the rotations written as R10 writes them: the output is the sum of the old words, and both new words use
`b ^ a`. R156: a draw of Xoroshiro128+ applies the step to XO_S1 and XO_S2, returns its output, and leaves SM_S. -/
def Obligations.XoroshiroStepIsTheRulesArithmetic : Prop :=
  (∀ r : GenRegs, draw64 .xo r =
    ({ r with xoS1 := (xoStep r.xoS1 r.xoS2).1, xoS2 := (xoStep r.xoS1 r.xoS2).2.1 }, (xoStep r.xoS1 r.xoS2).2.2)) ∧
  ∀ a b b1 : Word, b1 = b ^^^ a →
    (xoStep a b).2.2.toNat = (a.toNat + b.toNat) % 2 ^ 64 ∧
    (xoStep a b).1 = ((a <<< 55) ||| (a >>> 9)) ^^^ b1 ^^^ (b1 <<< 14) ∧
    (xoStep a b).2.1 = ((b1 <<< 36) ||| (b1 >>> 28))

/-- R202: rotating left by 55 is {a[8:0], a[63:9]}, and by 36 is {a[27:0], a[63:28]}: fixed rewirings. -/
def Obligations.RotationsAreRewirings : Prop :=
  ∀ a : Word, rotateLeft a 55 = (a.extractLsb' 0 9 ++ a.extractLsb' 9 55 : BitVec 64) ∧
    rotateLeft a 36 = (a.extractLsb' 0 28 ++ a.extractLsb' 28 36 : BitVec 64)

/-- R203 but for the period: the zero state is a fixed point, the state map is a bijection that is linear over GF(2), and no number of draws takes a nonzero
state to zero. -/
def Obligations.XoroshiroNeverReachesTheZeroState : Prop :=
  xoStep 0 0 = (0, 0, 0) ∧
  Function.Bijective (fun p : Word × Word => ((xoStep p.1 p.2).1, (xoStep p.1 p.2).2.1)) ∧
  (∀ a b c d : Word, (xoStep (a ^^^ c) (b ^^^ d)).1 = (xoStep a b).1 ^^^ (xoStep c d).1 ∧
    (xoStep (a ^^^ c) (b ^^^ d)).2.1 = (xoStep a b).2.1 ^^^ (xoStep c d).2.1) ∧
  ∀ (r : GenRegs) (n : Nat), XoNonzero r → XoNonzero (drawState .xo r n)

/-- R208: XO_SEED and XO_SEED_ENT never produce the all-zero state, before or after the discard. -/
def Obligations.SeedingNeverProducesTheZeroState : Prop :=
  ∀ (seed : Word) (r : GenRegs),
    ¬((smStep seed).2 = 0 ∧ (smStep (smStep seed).1).2 = 0) ∧ XoNonzero (xoSeedRegs seed r) ∧
    ∀ (i : Instr) (s t : State) (f : InFlight), i = .xoSeed ∨ i = .xoSeedEnt → s.inflight = some f → exec i s = .next t →
      t.inflight = none → t.err = .ok → XoNonzero t.gens

/-! ## The integer mapper -/

/-- R243, R247: for ordered bounds the range is their exact difference, and it is the full range exactly for the two extreme bounds. -/
def Obligations.RangeIsTheExactDifference : Prop :=
  ∀ lb ub : Half, lb.toInt ≤ ub.toInt →
    ((uiRange lb ub).toNat : Int) = ub.toInt - lb.toInt ∧
    (uiRange lb ub = fullRange ↔ lb.toInt = -2 ^ 31 ∧ ub.toInt = 2 ^ 31 - 1)

/-- R244, R254: when the range is not the full one, span is range + 1 and below 2^32, bucketCount is (2^64 − 1) / span and at least 2^32 + 1, and limit is
bucketCount times span exactly, in 64-bit arithmetic. -/
def Obligations.SpanBucketCountAndLimit : Prop :=
  ∀ range : Half, range ≠ fullRange →
    (uiSpan range).toNat = range.toNat + 1 ∧ (uiSpan range).toNat ≤ 2 ^ 32 - 1 ∧
    (uiBucketCount range).toNat = (2 ^ 64 - 1) / (range.toNat + 1) ∧ 2 ^ 32 + 1 ≤ (uiBucketCount range).toNat ∧
    (uiLimit range).toNat = (2 ^ 64 - 1) / (range.toNat + 1) * (range.toNat + 1)

/-- R246, R247, R251: for ordered bounds, a draw in the rejection path gives the result lb + q exactly when it lies in the q-th bucket; it is rejected exactly when
it is not below the limit; and in the full-range path every draw gives lb plus its low 32 bits. So every result lies between the bounds, and each has
exactly bucketCount draws. -/
def Obligations.EveryResultHasItsBucketOfDraws : Prop :=
  ∀ (lb ub : Half) (w : Word), lb.toInt ≤ ub.toInt →
    (∀ v, uiAccept lb ub w = some v → lb.toInt ≤ v.toInt ∧ v.toInt ≤ ub.toInt) ∧
    (uiRange lb ub = fullRange → ∃ v, uiAccept lb ub w = some v ∧ v.toInt = lb.toInt + (w.toNat % 2 ^ 32 : Nat)) ∧
    (uiRange lb ub ≠ fullRange →
      (uiAccept lb ub w = none ↔ (uiLimit (uiRange lb ub)).toNat ≤ w.toNat) ∧
      ∀ q : Nat, q < (uiSpan (uiRange lb ub)).toNat →
        ((∃ v, uiAccept lb ub w = some v ∧ v.toInt = lb.toInt + q) ↔
          q * (uiBucketCount (uiRange lb ub)).toNat ≤ w.toNat ∧ w.toNat < (q + 1) * (uiBucketCount (uiRange lb ub)).toNat))

/-- R252: for ordered bounds that are not the full range, the number of 64-bit draws that the mapper rejects is 2^64 − limit = ((2^64 − 1) mod span) + 1, between 1 and
span; with the rule's examples of spans 1, 2, 3, 10, 2^31 and 2^32 − 1. -/
def Obligations.RejectionCount : Prop :=
  (∀ lb ub : Half, lb.toInt ≤ ub.toInt → uiRange lb ub ≠ fullRange →
    Nat.card { w : Word // uiAccept lb ub w = none } = 2 ^ 64 - (uiLimit (uiRange lb ub)).toNat) ∧
  (∀ range : Half, range ≠ fullRange →
    2 ^ 64 - (uiLimit range).toNat = (2 ^ 64 - 1) % (range.toNat + 1) + 1 ∧
    1 ≤ 2 ^ 64 - (uiLimit range).toNat ∧ 2 ^ 64 - (uiLimit range).toNat ≤ range.toNat + 1) ∧
  2 ^ 64 - (uiLimit 0).toNat = 1 ∧ 2 ^ 64 - (uiLimit 1).toNat = 2 ∧ 2 ^ 64 - (uiLimit 2).toNat = 1 ∧
  2 ^ 64 - (uiLimit 9).toNat = 6 ∧ 2 ^ 64 - (uiLimit 0x7FFFFFFF).toNat = 2 ^ 31 ∧ 2 ^ 64 - (uiLimit 0xFFFFFFFE).toNat = 1

/-! ## The double mapper -/

/-- R270, R271: the value of the result is exactly the value of y minus 1, which is m / 2^52; and m is the top 52 bits of the draw. -/
def Obligations.DoubleIsTheExactDifference : Prop :=
  ∀ raw : Word, ∃ x y : ℚ, f64Value (udMap raw) = some x ∧ f64Value (udOperand raw) = some y ∧ x = y - 1 ∧
    x = ((raw.toNat / 2 ^ 12 : Nat) : ℚ) / 2 ^ 52 ∧ udMap raw = udBits (raw.toNat / 2 ^ 12)

/-- R272: 0 ≤ x ≤ 1 − 2^-52 < 1; the largest m gives 0x3FEFFFFFFFFFFFFE, and 1.0 never comes out. -/
def Obligations.DoubleIsBelowOne : Prop :=
  (∀ raw : Word, ∃ x : ℚ, f64Value (udMap raw) = some x ∧ 0 ≤ x ∧ x ≤ 1 - 1 / 2 ^ 52 ∧ x < 1 ∧ udMap raw ≠ oneF64) ∧
  udBits (2 ^ 52 - 1) = 0x3FEFFFFFFFFFFFFE

/-- R276, R275: the results are the encodings of the multiples of 2^-52 below 1, two draws giving the same one exactly when their top 52 bits agree; none is
subnormal, infinite or a NaN, zero is +0.0, and the smallest nonzero one is 2^-52. -/
def Obligations.DoubleGranularity : Prop :=
  (∀ a b : Word, udMap a = udMap b ↔ a.toNat / 2 ^ 12 = b.toNat / 2 ^ 12) ∧
  (∀ raw : Word, ∃ k : Nat, k < 2 ^ 52 ∧ f64Value (udMap raw) = some ((k : ℚ) / 2 ^ 52)) ∧
  (∀ k : Nat, k < 2 ^ 52 → ∃ raw : Word, f64Value (udMap raw) = some ((k : ℚ) / 2 ^ 52)) ∧
  (∀ raw : Word, f64Exponent (udMap raw) ≠ 0x7FF ∧ (f64Exponent (udMap raw) = 0 → udMap raw = 0) ∧ (udMap raw).getLsbD 63 = false) ∧
  (∀ raw : Word, raw.toNat < 2 ^ 12 → udMap raw = 0) ∧ udMap 0x1000 = 0x3CB0000000000000

/-! ## The host's port -/

/-- R71, R73, R75, R81: an 8-byte read while BUSY = 0 returns what the register map says and changes nothing (the data go to the host: log 15). -/
def Obligations.ReadsWhileIdleFollowTheRegisterMap : Prop :=
  ∀ (s : State) (off : Nat) (rest : List Input), s.inputs = .read (s.engineBase + off) 8 :: rest → s.busy = false → off < 4096 → off % 8 = 0 →
    ∃ v : Word, step s = .next { s with inputs := rest, readData := v :: s.readData } ∧
      (off = 0x000 → v = 0) ∧ (off = 0x008 → v = s.statusWord) ∧ (off = 0x010 → v = s.arg0) ∧ (off = 0x018 → v = s.arg1) ∧
      (off = 0x020 → v = s.res) ∧ (off = 0x028 → v.toInt = s.lb.toInt) ∧ (off = 0x030 → v.toInt = s.ub.toInt) ∧
      (off = 0x038 → v = s.cfgWord) ∧ (0x040 ≤ off ∧ off < 0x100 → v = 0) ∧
      (0x100 ≤ off ∧ off < 0x200 → ∀ (k : Nat) (i : Fin 256), k < 8 → i.val = off - 0x100 + k → byteOf v k = s.fbufByte i) ∧
      (0x200 ≤ off → v = 0)

/-- R43, R49, R50, R301, R39: the fields of STATUS (bit 0 BUSY, 1 OVR, 2 EFATAL, 3 ENTINIT, 7 to 4 ERR, 8 SM_V, 9 XO_V) and of CFG (1 to 0 UI_DEF, 3 to 2
UD_DEF); every other bit reads 0; the codes of ERR are those of R301, 0 to 7, and those of a default are 0 none, 1 SplitMix64, 2 Xoroshiro128+. -/
def Obligations.StatusAndCfgFields : Prop :=
  ∀ s : State,
    s.statusWord.getLsbD 0 = s.busy ∧ s.statusWord.getLsbD 1 = s.ovr ∧ s.statusWord.getLsbD 2 = s.efatal ∧
    s.statusWord.getLsbD 3 = s.entInit ∧ s.statusWord.extractLsb' 4 4 = s.err.code ∧ s.statusWord.getLsbD 8 = s.smV ∧
    s.statusWord.getLsbD 9 = s.xoV ∧ s.statusWord.toNat < 2 ^ 10 ∧
    s.cfgWord.extractLsb' 0 2 = defCode s.uiDef ∧ s.cfgWord.extractLsb' 2 2 = defCode s.udDef ∧ s.cfgWord.toNat < 2 ^ 4 ∧
    ErrCode.ok.code = 0 ∧ ErrCode.illegal.code = 1 ∧ ErrCode.invalidRange.code = 2 ∧ ErrCode.nullGenerator.code = 3 ∧
    ErrCode.unseeded.code = 4 ∧ ErrCode.entropyUnavailable.code = 5 ∧ ErrCode.zeroState.code = 6 ∧ ErrCode.badLength.code = 7 ∧
    s.err.code.toNat < 8 ∧ defCode none = 0 ∧ defCode (some .sm) = 1 ∧ defCode (some .xo) = 2

/-- R74, R75, R76, R150: an 8-byte write while BUSY = 0: to CMD it accepts the command with the operands of that moment, to ARG0 and ARG1 it writes them, and
everywhere else it is ignored. -/
def Obligations.WritesWhileIdle : Prop :=
  ∀ (s : State) (off : Nat) (v : Word) (rest : List Input),
    s.inputs = .write (s.engineBase + off) 8 v :: rest → s.busy = false → off < 4096 → off % 8 = 0 →
    (off = 0x000 → ∃ (t : State) (f : InFlight), step s = .next t ∧ t = { s with inputs := rest, inflight := some f } ∧ t.busy = true ∧
      t.a0 = s.arg0 ∧ t.a1 = s.arg1 ∧ f.word = v ∧ f.a0 = s.arg0 ∧ f.a1 = s.arg1 ∧ f.draws = 0 ∧ f.pending = none ∧ t.entReq = false) ∧
    (off = 0x010 → step s = .next { s with inputs := rest, arg0 := v }) ∧
    (off = 0x018 → step s = .next { s with inputs := rest, arg1 := v }) ∧
    (off ≠ 0x000 ∧ off ≠ 0x010 ∧ off ≠ 0x018 → step s = .next { s with inputs := rest })

/-- R77, R45, R158: an 8-byte write while BUSY = 1: to CMD, ARG0 or ARG1 it is dropped and sets OVR, and neither the registers nor the command in flight change;
everywhere else it is ignored. -/
def Obligations.WritesWhileBusyAreDropped : Prop :=
  ∀ (s : State) (off : Nat) (v : Word) (rest : List Input),
    s.inputs = .write (s.engineBase + off) 8 v :: rest → s.busy = true → off < 4096 → off % 8 = 0 →
    (off = 0x000 ∨ off = 0x010 ∨ off = 0x018 → step s = .next { s with inputs := rest, ovr := true }) ∧
    (off ≠ 0x000 ∧ off ≠ 0x010 ∧ off ≠ 0x018 → step s = .next { s with inputs := rest })

/-- R78: an 8-byte read while BUSY = 1 returns BUSY = 1 in bit 0 of STATUS (and 0 in the reserved bits, R49), ARG0 and ARG1, and 0 for CMD and unmapped offsets;
about the values the rule leaves unspecified nothing is said. No engine state changes: only the data returned and the model's counter of free values. -/
def Obligations.ReadsWhileBusy : Prop :=
  ∀ (s : State) (off : Nat) (rest : List Input), s.inputs = .read (s.engineBase + off) 8 :: rest → s.busy = true → off < 4096 → off % 8 = 0 →
    ∃ (v : Word) (c : Nat), step s = .next { s with inputs := rest, readData := v :: s.readData, freeCtr := c } ∧
      (off = 0x000 → v = 0) ∧ (off = 0x008 → v.getLsbD 0 = true ∧ v.toNat < 2 ^ 10) ∧ (off = 0x010 → v = s.arg0) ∧
      (off = 0x018 → v = s.arg1) ∧ (0x040 ≤ off ∧ off < 0x100 → v = 0) ∧ (0x200 ≤ off → v = 0)

/-- R340, R57, R341: the reset event sets every register to its reset value and abandons the command in flight, from every state; of SM_S, XO_S1, XO_S2 and FBUF,
which R57 leaves unspecified, nothing is said. The same values hold in State.reset. -/
def Obligations.ResetSetsTheResetValues : Prop :=
  ∀ (s : State) (rest : List Input), s.inputs = .reset :: rest →
    ∃ t, step s = .next t ∧ t.inputs = rest ∧ ∀ u, u = t ∨ u = State.reset →
      u.smV = false ∧ u.xoV = false ∧ u.lb = 0 ∧ u.ub = 0x7FFFFFFF ∧ u.uiDef = none ∧ u.udDef = none ∧
      u.arg0 = 0 ∧ u.arg1 = 0 ∧ u.res = 0 ∧ u.busy = false ∧ u.ovr = false ∧ u.efatal = false ∧ u.entInit = false ∧
      u.err = .ok ∧ u.inflight = none ∧ u.entReq = false
end

