-- ==== Sys2Proof/Laws/Decode.lean ====
section
/-! SUPPORT. The fields of a CMD write: what each holds of a packed word and as arithmetic, and what a successful decoding says (30_encoding.md R111, R119). -/

namespace Sys2Proof

/-! ## Fields of a packed word -/

@[simp] theorem fieldUpper_packFields (n : BitVec 16) (r : BitVec 6) (g : BitVec 2) (o : BitVec 8) :
    fieldUpper (packFields n r g o) = 0 := by
  unfold fieldUpper packFields
  ext i hi
  simp only [BitVec.getElem_extractLsb', BitVec.getLsbD_append]
  have h1 : ¬ (32 + i < 8) := by omega
  have h2 : ¬ (32 + i - 8 < 2) := by omega
  have h3 : ¬ (32 + i - 8 - 2 < 6) := by omega
  have h4 : ¬ (32 + i - 8 - 2 - 6 < 16) := by omega
  simp [h1, h2, h3, h4]

@[simp] theorem fieldLen_packFields (n : BitVec 16) (r : BitVec 6) (g : BitVec 2) (o : BitVec 8) :
    fieldLen (packFields n r g o) = n := by
  unfold fieldLen packFields
  ext i hi
  simp only [BitVec.getElem_extractLsb', BitVec.getLsbD_append]
  have h1 : ¬ (16 + i < 8) := by omega
  have h2 : ¬ (16 + i - 8 < 2) := by omega
  have h3 : ¬ (16 + i - 8 - 2 < 6) := by omega
  have h4 : 16 + i - 8 - 2 - 6 = i := by omega
  simp [h1, h2, h3, h4, hi]

@[simp] theorem fieldRsv_packFields (n : BitVec 16) (r : BitVec 6) (g : BitVec 2) (o : BitVec 8) :
    fieldRsv (packFields n r g o) = r := by
  unfold fieldRsv packFields
  ext i hi
  simp only [BitVec.getElem_extractLsb', BitVec.getLsbD_append]
  have h1 : ¬ (10 + i < 8) := by omega
  have h2 : ¬ (10 + i - 8 < 2) := by omega
  have h4 : 10 + i - 8 - 2 = i := by omega
  simp [h1, h2, h4, hi]

@[simp] theorem fieldGsel_packFields (n : BitVec 16) (r : BitVec 6) (g : BitVec 2) (o : BitVec 8) :
    fieldGsel (packFields n r g o) = g := by
  unfold fieldGsel packFields
  ext i hi
  simp only [BitVec.getElem_extractLsb', BitVec.getLsbD_append]
  have h1 : ¬ (8 + i < 8) := by omega
  have h4 : 8 + i - 8 = i := by omega
  simp [h1, h4, hi]

@[simp] theorem fieldOpc_packFields (n : BitVec 16) (r : BitVec 6) (g : BitVec 2) (o : BitVec 8) :
    fieldOpc (packFields n r g o) = o := by
  unfold fieldOpc packFields
  ext i hi
  simp only [BitVec.getElem_extractLsb', BitVec.getLsbD_append]
  simp [hi]

/-! ## Fields as arithmetic -/

theorem fieldUpper_toNat (v : Word) : (fieldUpper v).toNat = v.toNat / 2 ^ 32 := by
  simp [fieldUpper, Nat.shiftRight_eq_div_pow]
  omega

theorem fieldLen_toNat (v : Word) : (fieldLen v).toNat = v.toNat / 2 ^ 16 % 2 ^ 16 := by
  simp [fieldLen, Nat.shiftRight_eq_div_pow]

theorem fieldRsv_toNat (v : Word) : (fieldRsv v).toNat = v.toNat / 2 ^ 10 % 2 ^ 6 := by
  simp [fieldRsv, Nat.shiftRight_eq_div_pow]

theorem fieldGsel_toNat (v : Word) : (fieldGsel v).toNat = v.toNat / 2 ^ 8 % 2 ^ 2 := by
  simp [fieldGsel, Nat.shiftRight_eq_div_pow]

theorem fieldOpc_toNat (v : Word) : (fieldOpc v).toNat = v.toNat % 2 ^ 8 := by
  simp [fieldOpc]

/-! ## GSEL -/

@[simp] theorem GSel.ofBits_bits (g : GSel) : GSel.ofBits g.bits = some g := by cases g <;> rfl

theorem GSel.bits_of_ofBits {b : BitVec 2} {g : GSel} (h : GSel.ofBits b = some g) : g.bits = b := by
  revert h
  unfold GSel.ofBits
  split
  · rintro ⟨⟩; exact ‹b = _›.symm
  · split
    · rintro ⟨⟩; exact ‹b = _›.symm
    · split
      · rintro ⟨⟩; exact ‹b = _›.symm
      · rintro ⟨⟩

/-! ## What a successful decoding says -/

/-- The checks of R119, all passed: both ways. -/
theorem decode_eq_ok {v : Word} {i : Instr} :
    decode v = .ok i ↔
      fieldUpper v = 0 ∧ fieldRsv v = 0 ∧ ∃ r, opRow (fieldOpc v) = some r ∧ ∃ g, GSel.ofBits (fieldGsel v) = some g ∧
        r.gsel.allows g = true ∧ (r.usesLen = true ∨ fieldLen v = 0) ∧ i = r.build g (fieldLen v) := by
  unfold decode OpRow.decode
  constructor
  · intro h
    split at h
    · cases h
    split at h
    · cases h
    rename_i h1 h2
    simp only [ne_eq, Decidable.not_not] at h1 h2
    refine ⟨h1, h2, ?_⟩
    split at h
    · cases h
    rename_i r hr
    refine ⟨r, hr, ?_⟩
    split at h
    · cases h
    rename_i g hg
    refine ⟨g, hg, ?_⟩
    split at h
    · cases h
    split at h
    · cases h
    rename_i h3 h4
    injection h with h
    refine ⟨by simpa using h3, ?_, h.symm⟩
    cases hu : r.usesLen
    · simp [hu] at h4; exact .inr h4
    · exact .inl rfl
  · rintro ⟨h1, h2, r, hr, g, hg, ha, hl, rfl⟩
    rcases hl with hl | hl <;> simp [h1, h2, hr, hg, ha, hl]

/-- The command a row of the opcode map builds is well formed and has the fields it was built from. -/
theorem opRow_build {o : BitVec 8} {r : OpRow} {g : GSel} {n : BitVec 16} (h : opRow o = some r) (ha : r.gsel.allows g = true)
    (hl : r.usesLen = true ∨ n = 0) :
    (r.build g n).wf = true ∧ (r.build g n).opc = o ∧ (r.build g n).gsel = g ∧ (r.build g n).len = n := by
  revert h
  unfold opRow
  split <;> intro h <;> simp at h <;> subst h <;> simp_all [GselRule.allows, Instr.wf, Instr.opc, Instr.gsel, Instr.len]

end Sys2Proof
end

