-- ==== Sys2Proof/Laws/Draw.lean ====
section
/-! SUPPORT. Streams of draws (40_execution.md R157) and the fill buffer (43_bit_generator.md R222). -/

namespace Sys2Proof.Machine

open Sys2Proof.Safety

/-- One step of SplitMix64 adds GAMMA (R181). -/
theorem smStep_fst (s : Word) : (smStep s).1 = s + gamma := BitVec.add_comm gamma s

/-- Its output is the mix of the new state (R181). -/
theorem smStep_snd (s : Word) : (smStep s).2 = smMix (smStep s).1 := rfl

/-- A draw of one generator leaves the other's words (R220). -/
@[simp] theorem draw64_sm_xoS1 (r : GenRegs) : (draw64 .sm r).1.xoS1 = r.xoS1 := rfl
@[simp] theorem draw64_sm_xoS2 (r : GenRegs) : (draw64 .sm r).1.xoS2 = r.xoS2 := rfl
@[simp] theorem draw64_xo_smS (r : GenRegs) : (draw64 .xo r).1.smS = r.smS := rfl
@[simp] theorem xoDiscard_smS (r : GenRegs) : (xoDiscard r).smS = r.smS := rfl
@[simp] theorem xoSeedRegs_smS (seed : Word) (r : GenRegs) : (xoSeedRegs seed r).smS = r.smS := rfl

@[simp] theorem drawState_zero (g : Gen) (r : GenRegs) : drawState g r 0 = r := rfl

theorem drawState_succ (g : Gen) (r : GenRegs) (n : Nat) : drawState g r (n + 1) = (draw64 g (drawState g r n)).1 := rfl

/-- The stream can be cut after its first draw. -/
theorem drawState_draw64 (g : Gen) (r : GenRegs) (n : Nat) : drawState g (draw64 g r).1 n = drawState g r (n + 1) := by
  induction n with
  | zero => rfl
  | succ n ih => rw [drawState_succ, ih, ← drawState_succ]

/-- The stream can be cut anywhere. -/
theorem drawState_drawState (g : Gen) (r : GenRegs) (m n : Nat) : drawState g (drawState g r m) n = drawState g r (m + n) := by
  induction n with
  | zero => rfl
  | succ n ih => rw [drawState_succ, ih, ← drawState_succ, Nat.add_assoc]

theorem drawOutput_draw64 (g : Gen) (r : GenRegs) (n : Nat) : drawOutput g (draw64 g r).1 n = drawOutput g r (n + 1) := by
  unfold drawOutput
  rw [drawState_draw64]

theorem drawOutput_drawState (g : Gen) (r : GenRegs) (m n : Nat) : drawOutput g (drawState g r m) n = drawOutput g r (m + n) := by
  unfold drawOutput
  rw [drawState_drawState]

/-- `drawMany` leaves the state after its draws. -/
@[simp] theorem drawMany_snd (g : Gen) (n : Nat) (r : GenRegs) : (drawMany g n r).2 = drawState g r n := by
  induction n generalizing r with
  | zero => rfl
  | succ n ih =>
    change (drawMany g n (draw64 g r).1).2 = _
    rw [ih, drawState_draw64]

/-- `drawMany` returns the outputs of its draws, in order. -/
theorem drawMany_getD (g : Gen) (n : Nat) (r : GenRegs) (j : Nat) (h : j < n) : (drawMany g n r).1.getD j 0 = drawOutput g r j := by
  induction n generalizing r j with
  | zero => omega
  | succ n ih =>
    change ((draw64 g r).2 :: (drawMany g n (draw64 g r).1).1).getD j 0 = _
    cases j with
    | zero => rfl
    | succ j => rw [List.getD_cons_succ, ih _ _ (by omega), drawOutput_draw64]

/-- One byte of a filled buffer (R222). -/
theorem fillBuffer_getElem (n : Nat) (ws : List Word) (old : Vector Byte Config.fbufBytes) (i : Fin Config.fbufBytes) :
    (fillBuffer n ws old)[i] = if i.val < n then byteOf (ws.getD (i.val / 8) 0) (i.val % 8) else old[i] := by
  unfold fillBuffer
  simp

/-- A byte of a word as arithmetic (R8). -/
theorem byteOf_toNat (v : Word) (k : Nat) : (byteOf v k).toNat = v.toNat / 2 ^ (8 * k) % 2 ^ 8 := by
  rw [byteOf, BitVec.extractLsb'_toNat, Nat.shiftRight_eq_div_pow]

/-- Words with the same eight bytes are equal (R80). -/
theorem eq_of_byteOf_eq {a b : Word} (h : ∀ k, k < 8 → byteOf a k = byteOf b k) : a = b := by
  apply BitVec.eq_of_getLsbD_eq
  intro i hi
  have := congrArg (fun z : Byte => z.getLsbD (i % 8)) (h (i / 8) (by omega))
  simp only [byteOf, BitVec.getLsbD_extractLsb'] at this
  have e1 : i % 8 < 8 := by omega
  have e2 : 8 * (i / 8) + i % 8 = i := by omega
  simpa [e1, e2] using this

/-- Sign extension keeps the value (R11). -/
@[simp] theorem sext64_toInt (v : Half) : (sext64 v).toInt = v.toInt := by
  unfold sext64
  rw [BitVec.toInt_signExtend_of_le (by omega)]

@[simp] theorem trunc32_zext64 (v : Half) : trunc32 (zext64 v) = v := by simp [trunc32, zext64]

end Sys2Proof.Machine
end

