-- ==== Sys2Proof/Laws/State.lean ====
section
/-! SUPPORT. What each update of the state does to each field: true by definition, so that no proof unfolds a record update. -/

namespace Sys2Proof.Machine

/-! ## State.accept (R150) -/

@[simp] theorem State.accept_gens (v : Word) (s : State) : (s.accept v).gens = s.gens := rfl
@[simp] theorem State.accept_smV (v : Word) (s : State) : (s.accept v).smV = s.smV := rfl
@[simp] theorem State.accept_xoV (v : Word) (s : State) : (s.accept v).xoV = s.xoV := rfl
@[simp] theorem State.accept_lb (v : Word) (s : State) : (s.accept v).lb = s.lb := rfl
@[simp] theorem State.accept_ub (v : Word) (s : State) : (s.accept v).ub = s.ub := rfl
@[simp] theorem State.accept_uiDef (v : Word) (s : State) : (s.accept v).uiDef = s.uiDef := rfl
@[simp] theorem State.accept_udDef (v : Word) (s : State) : (s.accept v).udDef = s.udDef := rfl
@[simp] theorem State.accept_arg0 (v : Word) (s : State) : (s.accept v).arg0 = s.arg0 := rfl
@[simp] theorem State.accept_arg1 (v : Word) (s : State) : (s.accept v).arg1 = s.arg1 := rfl
@[simp] theorem State.accept_res (v : Word) (s : State) : (s.accept v).res = s.res := rfl
@[simp] theorem State.accept_fbuf (v : Word) (s : State) : (s.accept v).fbuf = s.fbuf := rfl
@[simp] theorem State.accept_ovr (v : Word) (s : State) : (s.accept v).ovr = s.ovr := rfl
@[simp] theorem State.accept_efatal (v : Word) (s : State) : (s.accept v).efatal = s.efatal := rfl
@[simp] theorem State.accept_entInit (v : Word) (s : State) : (s.accept v).entInit = s.entInit := rfl
@[simp] theorem State.accept_err (v : Word) (s : State) : (s.accept v).err = s.err := rfl
@[simp] theorem State.accept_inflight (v : Word) (s : State) : (s.accept v).inflight = some { word := v, a0 := s.arg0, a1 := s.arg1, draws := 0, pending := none, waiting := false } := rfl
@[simp] theorem State.accept_entAvail (v : Word) (s : State) : (s.accept v).entAvail = s.entAvail := rfl
@[simp] theorem State.accept_entValid (v : Word) (s : State) : (s.accept v).entValid = s.entValid := rfl
@[simp] theorem State.accept_entData (v : Word) (s : State) : (s.accept v).entData = s.entData := rfl
@[simp] theorem State.accept_engineBase (v : Word) (s : State) : (s.accept v).engineBase = s.engineBase := rfl
@[simp] theorem State.accept_inputs (v : Word) (s : State) : (s.accept v).inputs = s.inputs := rfl
@[simp] theorem State.accept_readData (v : Word) (s : State) : (s.accept v).readData = s.readData := rfl
@[simp] theorem State.accept_freeCtr (v : Word) (s : State) : (s.accept v).freeCtr = s.freeCtr := rfl

/-! ## State.complete (R151) -/

@[simp] theorem State.complete_gens (e : ErrCode) (s : State) : (s.complete e).gens = s.gens := rfl
@[simp] theorem State.complete_smV (e : ErrCode) (s : State) : (s.complete e).smV = s.smV := rfl
@[simp] theorem State.complete_xoV (e : ErrCode) (s : State) : (s.complete e).xoV = s.xoV := rfl
@[simp] theorem State.complete_lb (e : ErrCode) (s : State) : (s.complete e).lb = s.lb := rfl
@[simp] theorem State.complete_ub (e : ErrCode) (s : State) : (s.complete e).ub = s.ub := rfl
@[simp] theorem State.complete_uiDef (e : ErrCode) (s : State) : (s.complete e).uiDef = s.uiDef := rfl
@[simp] theorem State.complete_udDef (e : ErrCode) (s : State) : (s.complete e).udDef = s.udDef := rfl
@[simp] theorem State.complete_arg0 (e : ErrCode) (s : State) : (s.complete e).arg0 = s.arg0 := rfl
@[simp] theorem State.complete_arg1 (e : ErrCode) (s : State) : (s.complete e).arg1 = s.arg1 := rfl
@[simp] theorem State.complete_res (e : ErrCode) (s : State) : (s.complete e).res = s.res := rfl
@[simp] theorem State.complete_fbuf (e : ErrCode) (s : State) : (s.complete e).fbuf = s.fbuf := rfl
@[simp] theorem State.complete_ovr (e : ErrCode) (s : State) : (s.complete e).ovr = s.ovr := rfl
@[simp] theorem State.complete_efatal (e : ErrCode) (s : State) : (s.complete e).efatal = s.efatal := rfl
@[simp] theorem State.complete_entInit (e : ErrCode) (s : State) : (s.complete e).entInit = s.entInit := rfl
@[simp] theorem State.complete_err (e : ErrCode) (s : State) : (s.complete e).err = e := rfl
@[simp] theorem State.complete_inflight (e : ErrCode) (s : State) : (s.complete e).inflight = none := rfl
@[simp] theorem State.complete_entAvail (e : ErrCode) (s : State) : (s.complete e).entAvail = s.entAvail := rfl
@[simp] theorem State.complete_entValid (e : ErrCode) (s : State) : (s.complete e).entValid = s.entValid := rfl
@[simp] theorem State.complete_entData (e : ErrCode) (s : State) : (s.complete e).entData = s.entData := rfl
@[simp] theorem State.complete_engineBase (e : ErrCode) (s : State) : (s.complete e).engineBase = s.engineBase := rfl
@[simp] theorem State.complete_inputs (e : ErrCode) (s : State) : (s.complete e).inputs = s.inputs := rfl
@[simp] theorem State.complete_readData (e : ErrCode) (s : State) : (s.complete e).readData = s.readData := rfl
@[simp] theorem State.complete_freeCtr (e : ErrCode) (s : State) : (s.complete e).freeCtr = s.freeCtr := rfl

/-! ## State.finish (R151) -/

@[simp] theorem State.finish_gens (s : State) : s.finish.gens = s.gens := rfl
@[simp] theorem State.finish_smV (s : State) : s.finish.smV = s.smV := rfl
@[simp] theorem State.finish_xoV (s : State) : s.finish.xoV = s.xoV := rfl
@[simp] theorem State.finish_lb (s : State) : s.finish.lb = s.lb := rfl
@[simp] theorem State.finish_ub (s : State) : s.finish.ub = s.ub := rfl
@[simp] theorem State.finish_uiDef (s : State) : s.finish.uiDef = s.uiDef := rfl
@[simp] theorem State.finish_udDef (s : State) : s.finish.udDef = s.udDef := rfl
@[simp] theorem State.finish_arg0 (s : State) : s.finish.arg0 = s.arg0 := rfl
@[simp] theorem State.finish_arg1 (s : State) : s.finish.arg1 = s.arg1 := rfl
@[simp] theorem State.finish_res (s : State) : s.finish.res = s.res := rfl
@[simp] theorem State.finish_fbuf (s : State) : s.finish.fbuf = s.fbuf := rfl
@[simp] theorem State.finish_ovr (s : State) : s.finish.ovr = s.ovr := rfl
@[simp] theorem State.finish_efatal (s : State) : s.finish.efatal = s.efatal := rfl
@[simp] theorem State.finish_entInit (s : State) : s.finish.entInit = s.entInit := rfl
@[simp] theorem State.finish_err (s : State) : s.finish.err = .ok := rfl
@[simp] theorem State.finish_inflight (s : State) : s.finish.inflight = none := rfl
@[simp] theorem State.finish_entAvail (s : State) : s.finish.entAvail = s.entAvail := rfl
@[simp] theorem State.finish_entValid (s : State) : s.finish.entValid = s.entValid := rfl
@[simp] theorem State.finish_entData (s : State) : s.finish.entData = s.entData := rfl
@[simp] theorem State.finish_engineBase (s : State) : s.finish.engineBase = s.engineBase := rfl
@[simp] theorem State.finish_inputs (s : State) : s.finish.inputs = s.inputs := rfl
@[simp] theorem State.finish_readData (s : State) : s.finish.readData = s.readData := rfl
@[simp] theorem State.finish_freeCtr (s : State) : s.finish.freeCtr = s.freeCtr := rfl

/-! ## State.raise (R303) -/

@[simp] theorem State.raise_gens (e : ErrCode) (s : State) : (s.raise e).gens = s.gens := rfl
@[simp] theorem State.raise_smV (e : ErrCode) (s : State) : (s.raise e).smV = s.smV := rfl
@[simp] theorem State.raise_xoV (e : ErrCode) (s : State) : (s.raise e).xoV = s.xoV := rfl
@[simp] theorem State.raise_lb (e : ErrCode) (s : State) : (s.raise e).lb = s.lb := rfl
@[simp] theorem State.raise_ub (e : ErrCode) (s : State) : (s.raise e).ub = s.ub := rfl
@[simp] theorem State.raise_uiDef (e : ErrCode) (s : State) : (s.raise e).uiDef = s.uiDef := rfl
@[simp] theorem State.raise_udDef (e : ErrCode) (s : State) : (s.raise e).udDef = s.udDef := rfl
@[simp] theorem State.raise_arg0 (e : ErrCode) (s : State) : (s.raise e).arg0 = s.arg0 := rfl
@[simp] theorem State.raise_arg1 (e : ErrCode) (s : State) : (s.raise e).arg1 = s.arg1 := rfl
@[simp] theorem State.raise_res (e : ErrCode) (s : State) : (s.raise e).res = s.res := rfl
@[simp] theorem State.raise_fbuf (e : ErrCode) (s : State) : (s.raise e).fbuf = s.fbuf := rfl
@[simp] theorem State.raise_ovr (e : ErrCode) (s : State) : (s.raise e).ovr = s.ovr := rfl
@[simp] theorem State.raise_efatal (e : ErrCode) (s : State) : (s.raise e).efatal = s.efatal := rfl
@[simp] theorem State.raise_entInit (e : ErrCode) (s : State) : (s.raise e).entInit = s.entInit := rfl
@[simp] theorem State.raise_err (e : ErrCode) (s : State) : (s.raise e).err = e := rfl
@[simp] theorem State.raise_inflight (e : ErrCode) (s : State) : (s.raise e).inflight = none := rfl
@[simp] theorem State.raise_entAvail (e : ErrCode) (s : State) : (s.raise e).entAvail = s.entAvail := rfl
@[simp] theorem State.raise_entValid (e : ErrCode) (s : State) : (s.raise e).entValid = s.entValid := rfl
@[simp] theorem State.raise_entData (e : ErrCode) (s : State) : (s.raise e).entData = s.entData := rfl
@[simp] theorem State.raise_engineBase (e : ErrCode) (s : State) : (s.raise e).engineBase = s.engineBase := rfl
@[simp] theorem State.raise_inputs (e : ErrCode) (s : State) : (s.raise e).inputs = s.inputs := rfl
@[simp] theorem State.raise_readData (e : ErrCode) (s : State) : (s.raise e).readData = s.readData := rfl
@[simp] theorem State.raise_freeCtr (e : ErrCode) (s : State) : (s.raise e).freeCtr = s.freeCtr := rfl

/-! ## State.wait (R97) -/

@[simp] theorem State.wait_gens (s : State) : s.wait.gens = s.gens := rfl
@[simp] theorem State.wait_smV (s : State) : s.wait.smV = s.smV := rfl
@[simp] theorem State.wait_xoV (s : State) : s.wait.xoV = s.xoV := rfl
@[simp] theorem State.wait_lb (s : State) : s.wait.lb = s.lb := rfl
@[simp] theorem State.wait_ub (s : State) : s.wait.ub = s.ub := rfl
@[simp] theorem State.wait_uiDef (s : State) : s.wait.uiDef = s.uiDef := rfl
@[simp] theorem State.wait_udDef (s : State) : s.wait.udDef = s.udDef := rfl
@[simp] theorem State.wait_arg0 (s : State) : s.wait.arg0 = s.arg0 := rfl
@[simp] theorem State.wait_arg1 (s : State) : s.wait.arg1 = s.arg1 := rfl
@[simp] theorem State.wait_res (s : State) : s.wait.res = s.res := rfl
@[simp] theorem State.wait_fbuf (s : State) : s.wait.fbuf = s.fbuf := rfl
@[simp] theorem State.wait_ovr (s : State) : s.wait.ovr = s.ovr := rfl
@[simp] theorem State.wait_efatal (s : State) : s.wait.efatal = s.efatal := rfl
@[simp] theorem State.wait_entInit (s : State) : s.wait.entInit = s.entInit := rfl
@[simp] theorem State.wait_err (s : State) : s.wait.err = s.err := rfl
@[simp] theorem State.wait_inflight (s : State) : s.wait.inflight = s.inflight.map fun f => { f with waiting := true } := rfl
@[simp] theorem State.wait_entAvail (s : State) : s.wait.entAvail = s.entAvail := rfl
@[simp] theorem State.wait_entValid (s : State) : s.wait.entValid = s.entValid := rfl
@[simp] theorem State.wait_entData (s : State) : s.wait.entData = s.entData := rfl
@[simp] theorem State.wait_engineBase (s : State) : s.wait.engineBase = s.engineBase := rfl
@[simp] theorem State.wait_inputs (s : State) : s.wait.inputs = s.inputs := rfl
@[simp] theorem State.wait_readData (s : State) : s.wait.readData = s.readData := rfl
@[simp] theorem State.wait_freeCtr (s : State) : s.wait.freeCtr = s.freeCtr := rfl

/-! ## State.reject (R245) -/

@[simp] theorem State.reject_gens (r : GenRegs) (s : State) : (s.reject r).gens = s.gens := rfl
@[simp] theorem State.reject_smV (r : GenRegs) (s : State) : (s.reject r).smV = s.smV := rfl
@[simp] theorem State.reject_xoV (r : GenRegs) (s : State) : (s.reject r).xoV = s.xoV := rfl
@[simp] theorem State.reject_lb (r : GenRegs) (s : State) : (s.reject r).lb = s.lb := rfl
@[simp] theorem State.reject_ub (r : GenRegs) (s : State) : (s.reject r).ub = s.ub := rfl
@[simp] theorem State.reject_uiDef (r : GenRegs) (s : State) : (s.reject r).uiDef = s.uiDef := rfl
@[simp] theorem State.reject_udDef (r : GenRegs) (s : State) : (s.reject r).udDef = s.udDef := rfl
@[simp] theorem State.reject_arg0 (r : GenRegs) (s : State) : (s.reject r).arg0 = s.arg0 := rfl
@[simp] theorem State.reject_arg1 (r : GenRegs) (s : State) : (s.reject r).arg1 = s.arg1 := rfl
@[simp] theorem State.reject_res (r : GenRegs) (s : State) : (s.reject r).res = s.res := rfl
@[simp] theorem State.reject_fbuf (r : GenRegs) (s : State) : (s.reject r).fbuf = s.fbuf := rfl
@[simp] theorem State.reject_ovr (r : GenRegs) (s : State) : (s.reject r).ovr = s.ovr := rfl
@[simp] theorem State.reject_efatal (r : GenRegs) (s : State) : (s.reject r).efatal = s.efatal := rfl
@[simp] theorem State.reject_entInit (r : GenRegs) (s : State) : (s.reject r).entInit = s.entInit := rfl
@[simp] theorem State.reject_err (r : GenRegs) (s : State) : (s.reject r).err = s.err := rfl
@[simp] theorem State.reject_inflight (r : GenRegs) (s : State) : (s.reject r).inflight = s.inflight.map fun f => { f with draws := f.draws + 1, pending := some r } := rfl
@[simp] theorem State.reject_entAvail (r : GenRegs) (s : State) : (s.reject r).entAvail = s.entAvail := rfl
@[simp] theorem State.reject_entValid (r : GenRegs) (s : State) : (s.reject r).entValid = s.entValid := rfl
@[simp] theorem State.reject_entData (r : GenRegs) (s : State) : (s.reject r).entData = s.entData := rfl
@[simp] theorem State.reject_engineBase (r : GenRegs) (s : State) : (s.reject r).engineBase = s.engineBase := rfl
@[simp] theorem State.reject_inputs (r : GenRegs) (s : State) : (s.reject r).inputs = s.inputs := rfl
@[simp] theorem State.reject_readData (r : GenRegs) (s : State) : (s.reject r).readData = s.readData := rfl
@[simp] theorem State.reject_freeCtr (r : GenRegs) (s : State) : (s.reject r).freeCtr = s.freeCtr := rfl

/-! ## hostRead (R73) -/

@[simp] theorem hostRead_gens (off : Nat) (s : State) : (hostRead off s).gens = s.gens := rfl
@[simp] theorem hostRead_smV (off : Nat) (s : State) : (hostRead off s).smV = s.smV := rfl
@[simp] theorem hostRead_xoV (off : Nat) (s : State) : (hostRead off s).xoV = s.xoV := rfl
@[simp] theorem hostRead_lb (off : Nat) (s : State) : (hostRead off s).lb = s.lb := rfl
@[simp] theorem hostRead_ub (off : Nat) (s : State) : (hostRead off s).ub = s.ub := rfl
@[simp] theorem hostRead_uiDef (off : Nat) (s : State) : (hostRead off s).uiDef = s.uiDef := rfl
@[simp] theorem hostRead_udDef (off : Nat) (s : State) : (hostRead off s).udDef = s.udDef := rfl
@[simp] theorem hostRead_arg0 (off : Nat) (s : State) : (hostRead off s).arg0 = s.arg0 := rfl
@[simp] theorem hostRead_arg1 (off : Nat) (s : State) : (hostRead off s).arg1 = s.arg1 := rfl
@[simp] theorem hostRead_res (off : Nat) (s : State) : (hostRead off s).res = s.res := rfl
@[simp] theorem hostRead_fbuf (off : Nat) (s : State) : (hostRead off s).fbuf = s.fbuf := rfl
@[simp] theorem hostRead_ovr (off : Nat) (s : State) : (hostRead off s).ovr = s.ovr := rfl
@[simp] theorem hostRead_efatal (off : Nat) (s : State) : (hostRead off s).efatal = s.efatal := rfl
@[simp] theorem hostRead_entInit (off : Nat) (s : State) : (hostRead off s).entInit = s.entInit := rfl
@[simp] theorem hostRead_err (off : Nat) (s : State) : (hostRead off s).err = s.err := rfl
@[simp] theorem hostRead_inflight (off : Nat) (s : State) : (hostRead off s).inflight = s.inflight := rfl
@[simp] theorem hostRead_entAvail (off : Nat) (s : State) : (hostRead off s).entAvail = s.entAvail := rfl
@[simp] theorem hostRead_entValid (off : Nat) (s : State) : (hostRead off s).entValid = s.entValid := rfl
@[simp] theorem hostRead_entData (off : Nat) (s : State) : (hostRead off s).entData = s.entData := rfl
@[simp] theorem hostRead_engineBase (off : Nat) (s : State) : (hostRead off s).engineBase = s.engineBase := rfl
@[simp] theorem hostRead_inputs (off : Nat) (s : State) : (hostRead off s).inputs = s.inputs := rfl
@[simp] theorem hostRead_readData (off : Nat) (s : State) : (hostRead off s).readData = s.readValue off :: s.readData := rfl
@[simp] theorem hostRead_freeCtr (off : Nat) (s : State) : (hostRead off s).freeCtr = s.freeCtr + s.readDraws off := rfl

/-! ## assertReset (R340, R57) -/

@[simp] theorem State.assertReset_gens (s : State) : s.assertReset.gens = { smS := Config.freeWord s.freeCtr, xoS1 := Config.freeWord (s.freeCtr + 1), xoS2 := Config.freeWord (s.freeCtr + 2) } := rfl
@[simp] theorem State.assertReset_smV (s : State) : s.assertReset.smV = false := rfl
@[simp] theorem State.assertReset_xoV (s : State) : s.assertReset.xoV = false := rfl
@[simp] theorem State.assertReset_lb (s : State) : s.assertReset.lb = 0 := rfl
@[simp] theorem State.assertReset_ub (s : State) : s.assertReset.ub = 0x7FFFFFFF := rfl
@[simp] theorem State.assertReset_uiDef (s : State) : s.assertReset.uiDef = none := rfl
@[simp] theorem State.assertReset_udDef (s : State) : s.assertReset.udDef = none := rfl
@[simp] theorem State.assertReset_arg0 (s : State) : s.assertReset.arg0 = 0 := rfl
@[simp] theorem State.assertReset_arg1 (s : State) : s.assertReset.arg1 = 0 := rfl
@[simp] theorem State.assertReset_res (s : State) : s.assertReset.res = 0 := rfl
@[simp] theorem State.assertReset_fbuf (s : State) : s.assertReset.fbuf = Vector.ofFn fun i => Config.freeByte (s.freeCtr + 3 + i) := rfl
@[simp] theorem State.assertReset_ovr (s : State) : s.assertReset.ovr = false := rfl
@[simp] theorem State.assertReset_efatal (s : State) : s.assertReset.efatal = false := rfl
@[simp] theorem State.assertReset_entInit (s : State) : s.assertReset.entInit = false := rfl
@[simp] theorem State.assertReset_err (s : State) : s.assertReset.err = .ok := rfl
@[simp] theorem State.assertReset_inflight (s : State) : s.assertReset.inflight = none := rfl
@[simp] theorem State.assertReset_entAvail (s : State) : s.assertReset.entAvail = s.entAvail := rfl
@[simp] theorem State.assertReset_entValid (s : State) : s.assertReset.entValid = s.entValid := rfl
@[simp] theorem State.assertReset_entData (s : State) : s.assertReset.entData = s.entData := rfl
@[simp] theorem State.assertReset_engineBase (s : State) : s.assertReset.engineBase = s.engineBase := rfl
@[simp] theorem State.assertReset_inputs (s : State) : s.assertReset.inputs = s.inputs := rfl
@[simp] theorem State.assertReset_readData (s : State) : s.assertReset.readData = s.readData := rfl
@[simp] theorem State.assertReset_freeCtr (s : State) : s.assertReset.freeCtr = s.freeCtr + resetDraws := rfl

/-! ## BUSY and ENT_REQ (R44, R95) -/

@[simp] theorem State.finish_busy (s : State) : s.finish.busy = false := rfl
@[simp] theorem State.raise_busy (e : ErrCode) (s : State) : (s.raise e).busy = false := rfl
@[simp] theorem State.accept_busy (v : Word) (s : State) : (s.accept v).busy = true := rfl
@[simp] theorem State.assertReset_busy (s : State) : s.assertReset.busy = false := rfl
@[simp] theorem State.wait_busy (s : State) : s.wait.busy = s.busy := by simp [State.busy]
@[simp] theorem State.reject_busy (r : GenRegs) (s : State) : (s.reject r).busy = s.busy := by simp [State.busy]

theorem State.busy_eq_false {s : State} : s.busy = false ↔ s.inflight = none := by simp [State.busy]

theorem State.busy_eq_true {s : State} : s.busy = true ↔ ∃ f, s.inflight = some f := by simp [State.busy, Option.isSome_iff_exists]

/-! ## Accesses -/

/-- A register is where R71 puts it, and nowhere else. -/
theorem regAt_offset (r : Reg) : regAt r.offset = some r := by
  cases r with
  | fbuf j => revert j; decide
  | _ => rfl

/-- A host write changes nothing but what the host may write, the in-flight command and OVR (R74 to R77). -/
theorem hostWrite_keeps (off : Nat) (v : Word) (s : State) :
    hostWrite off v s = { s with
      arg0 := (hostWrite off v s).arg0, arg1 := (hostWrite off v s).arg1, ovr := (hostWrite off v s).ovr,
      inflight := (hostWrite off v s).inflight } := by
  unfold hostWrite
  rcases regAt off with _ | r
  · rfl
  · cases r <;> first | rfl | (cases s.busy <;> rfl)

/-- An address is in the window exactly when it is the base and an offset below 4096 (R70). -/
theorem State.windowOffset_eq_some {s : State} {addr off : Nat} :
    s.windowOffset addr = some off ↔ addr = s.engineBase + off ∧ off < windowBytes := by
  unfold State.windowOffset
  split <;> simp <;> omega

theorem State.windowOffset_eq_none {s : State} {addr : Nat} :
    s.windowOffset addr = none ↔ addr < s.engineBase ∨ s.engineBase + windowBytes ≤ addr := by
  unfold State.windowOffset
  split <;> simp <;> omega

theorem definedAccess_eq_true {off width : Nat} : definedAccess off width = true ↔ width = 8 ∧ off % 8 = 0 := by
  simp [definedAccess]

/-- An access that is served is in the window, 8 bytes wide and aligned (R70, R72). -/
theorem hostAccess_next {addr width : Nat} {serve : Nat → State} {s t : State} (h : hostAccess addr width serve s = .next t) :
    ∃ off, addr = s.engineBase + off ∧ off < windowBytes ∧ width = 8 ∧ off % 8 = 0 ∧ t = serve off := by
  unfold hostAccess at h
  cases hw : s.windowOffset addr with
  | none => simp only [hw] at h; cases h
  | some off =>
    simp only [hw] at h
    cases hd : definedAccess off width
    · simp only [hd] at h; cases h
    · simp only [hd] at h
      injection h with h
      obtain ⟨h1, h2⟩ := State.windowOffset_eq_some.1 hw
      obtain ⟨h3, h4⟩ := definedAccess_eq_true.1 hd
      exact ⟨off, h1, h2, h3, h4, h.symm⟩

/-- A defined access is served. -/
theorem hostAccess_of_defined {off : Nat} (serve : Nat → State) (s : State) (h : off < windowBytes) (h8 : off % 8 = 0) :
    hostAccess (s.engineBase + off) 8 serve s = .next (serve off) := by
  unfold hostAccess
  rw [State.windowOffset_eq_some.2 ⟨rfl, h⟩]
  exact if_pos (definedAccess_eq_true.2 ⟨rfl, h8⟩)

/-- The step of a defined read, and of a defined write. -/
theorem step_read {s : State} {off : Nat} {rest : List Input} (hi : s.inputs = .read (s.engineBase + off) 8 :: rest)
    (h : off < windowBytes) (h8 : off % 8 = 0) : step s = .next (hostRead off { s with inputs := rest }) := by
  simp only [step, hi, serveInput]
  exact hostAccess_of_defined _ { s with inputs := rest } h h8

theorem step_write {s : State} {off : Nat} {v : Word} {rest : List Input} (hi : s.inputs = .write (s.engineBase + off) 8 v :: rest)
    (h : off < windowBytes) (h8 : off % 8 = 0) : step s = .next (hostWrite off v { s with inputs := rest }) := by
  simp only [step, hi, serveInput]
  exact hostAccess_of_defined _ { s with inputs := rest } h h8

/-! ## The words a command draws from -/

@[simp] theorem GenRegs.withWords_self (g : Gen) (r : GenRegs) : r.withWords g r = r := by cases g <;> rfl

/-- Before its first draw a command draws from the registers (R157). -/
theorem State.workGens_of_pending {s : State} (g : Gen) (h : ∀ f, s.inflight = some f → f.pending = none) : s.workGens g = s.gens := by
  unfold State.workGens
  cases hf : s.inflight with
  | none => rfl
  | some f => simp [h f hf]

@[simp] theorem State.workGens_sm_xoS1 (s : State) : (s.workGens .sm).xoS1 = s.gens.xoS1 := by
  unfold State.workGens
  cases s.inflight <;> rfl

@[simp] theorem State.workGens_sm_xoS2 (s : State) : (s.workGens .sm).xoS2 = s.gens.xoS2 := by
  unfold State.workGens
  cases s.inflight <;> rfl

@[simp] theorem State.workGens_xo_smS (s : State) : (s.workGens .xo).smS = s.gens.smS := by
  unfold State.workGens
  cases s.inflight <;> rfl


end Sys2Proof.Machine
end

