-- ==== Sys2Proof/Laws/Exec.lean ====
section
/-! SUPPORT. What the shared operations and one command can do, said once: if the operation answers a next state, the state is one of those
listed, with the conditions that led to it. Proofs about commands split on `exec_cases` and unfold nothing. -/

namespace Sys2Proof.Machine

open Sys2Proof.Safety

/-! ## The shared operations -/

/-- ResolveGen succeeds exactly on a named, seeded generator (R155). -/
theorem resolveGen_eq_ok {gsel : GSel} {d : Option Gen} {s : State} {g : Gen} :
    resolveGen gsel d s = .ok g ↔ gselTarget gsel d = some g ∧ s.seeded g = true := by
  unfold resolveGen
  cases gselTarget gsel d with
  | none => simp
  | some g' =>
    cases h : s.seeded g'
    · simp only [h]
      simp
      rintro rfl
      exact h
    · simp only [h]
      simp
      rintro rfl
      exact h

/-- A command with a resolved generator goes on with it. -/
theorem withGen_of_seeded {gsel : GSel} {d : Option Gen} {s : State} {g : Gen} (k : Gen → Result) (h : gselTarget gsel d = some g)
    (hs : s.seeded g = true) : withGen gsel d s k = k g := by
  unfold withGen
  rw [resolveGen_eq_ok.2 ⟨h, hs⟩]

/-- All that `withGen` can do: raise what the resolution raises (R155, R304), or go on. -/
theorem withGen_next {gsel : GSel} {d : Option Gen} {s t : State} {k : Gen → Result} (h : withGen gsel d s k = .next t) :
    (gselTarget gsel d = none ∧ t = s.raise .nullGenerator) ∨
    (∃ g, gselTarget gsel d = some g ∧ s.seeded g = false ∧ t = s.raise .unseeded) ∨
    ∃ g, gselTarget gsel d = some g ∧ s.seeded g = true ∧ k g = .next t := by
  unfold withGen resolveGen at h
  cases hg : gselTarget gsel d with
  | none =>
    simp only [hg, raised] at h
    injection h with h
    exact .inl ⟨rfl, h.symm⟩
  | some g =>
    cases hs : s.seeded g
    · simp only [hg, hs, raised] at h
      injection h with h
      exact .inr (.inl ⟨g, rfl, hs, h.symm⟩)
    · simp only [hg, hs] at h
      exact .inr (.inr ⟨g, rfl, hs, h⟩)

/-- The check of R98 passes exactly when the facility may be used; then ENTINIT is set and nothing else changes. -/
theorem entropyInit_of_usable {s : State} (h : EntropyUsable s) : entropyInit s = ({ s with entInit := true }, true) := by
  obtain ⟨h1, h2⟩ := h
  unfold entropyInit
  rw [if_neg (by simp [h1])]
  by_cases hi : s.entInit = true
  · have he : ({ s with entInit := true } : State) = s := by rw [← hi]
    rw [if_pos hi, he]
  · rw [if_neg hi, if_pos (h2.resolve_left hi)]

/-- The check of R98 fails exactly otherwise: with EFATAL already set nothing changes, else ENTINIT and EFATAL are set. -/
theorem entropyInit_of_unusable {s : State} (h : ¬ EntropyUsable s) :
    (s.efatal = true ∧ entropyInit s = (s, false)) ∨
    (s.efatal = false ∧ s.entInit = false ∧ s.entAvail = false ∧ entropyInit s = ({ s with entInit := true, efatal := true }, false)) := by
  unfold EntropyUsable at h
  unfold entropyInit
  cases h1 : s.efatal <;> cases h2 : s.entInit <;> cases h3 : s.entAvail <;> simp_all

/-- All that an entropy command can do (R96 to R98). -/
theorem withEntropy_next {s t : State} {k : Word → State → State} (h : withEntropy s k = .next t) :
    (s.entReq = false ∧ s.efatal = true ∧ t = s.raise .entropyUnavailable) ∨
    (s.entReq = false ∧ s.efatal = false ∧ s.entInit = false ∧ s.entAvail = false ∧
      t = ({ s with entInit := true, efatal := true } : State).raise .entropyUnavailable) ∨
    (s.entReq = false ∧ EntropyUsable s ∧ t = ({ s with entInit := true } : State).wait) ∨
    (s.entReq = true ∧ s.entValid = false ∧ t = s) ∨
    (s.entReq = true ∧ s.entValid = true ∧ t = (k s.entData { s with entValid := false }).finish) := by
  unfold withEntropy at h
  cases hr : s.entReq
  · rw [hr] at h
    by_cases hu : EntropyUsable s
    · rw [entropyInit_of_usable hu] at h
      injection h with h
      exact .inr (.inr (.inl ⟨rfl, hu, h.symm⟩))
    · rcases entropyInit_of_unusable hu with ⟨h1, he⟩ | ⟨h1, h2, h3, he⟩
      · rw [he] at h
        injection h with h
        exact .inl ⟨rfl, h1, h.symm⟩
      · rw [he] at h
        injection h with h
        exact .inr (.inl ⟨rfl, h1, h2, h3, h.symm⟩)
  · rw [hr, if_pos rfl] at h
    cases hv : s.entValid
    · rw [hv] at h
      injection h with h
      exact .inr (.inr (.inr (.inl ⟨rfl, rfl, h.symm⟩)))
    · rw [hv, if_pos rfl] at h
      injection h with h
      exact .inr (.inr (.inr (.inr ⟨rfl, rfl, h.symm⟩)))

/-- All that one turn of the integer mapper can do (R245 to R248). -/
theorem uiMapTurn_next {lb ub : Half} {g : Gen} {s t : State} (h : uiMapTurn lb ub g s = .next t) :
    (∃ v, uiAccept lb ub (draw64 g (s.workGens g)).2 = some v ∧
      t = ({ s with gens := (draw64 g (s.workGens g)).1, res := sext64 v } : State).finish) ∨
    (uiAccept lb ub (draw64 g (s.workGens g)).2 = none ∧ t = s.reject (draw64 g (s.workGens g)).1) := by
  unfold uiMapTurn at h
  cases hu : uiAccept lb ub (draw64 g (s.workGens g)).2 with
  | none =>
    simp only [hu] at h
    injection h with h
    exact .inr ⟨rfl, h.symm⟩
  | some v =>
    simp only [hu, done] at h
    injection h with h
    exact .inl ⟨v, rfl, h.symm⟩

/-- The comparison of bounds is that of signed integers (R38). -/
theorem leI32_eq_true {u v : Half} : leI32 u v = true ↔ u.toInt ≤ v.toInt := by simp [leI32]

theorem leI32_eq_false {u v : Half} : leI32 u v = false ↔ v.toInt < u.toInt := by simp [leI32]

/-! ## One command -/

/-- Every way a command can take a next state: the code it raises, the request of an entropy word and the wait for it, the rejected draw, or its normal completion. -/
inductive ExecCase (s : State) : Instr → State → Prop
  | zeroState (h : s.a0 = 0 ∧ s.a1 = 0) : ExecCase s .xoSetstate (s.raise .zeroState)
  | badLength (gsel : GSel) (n : BitVec 16) (h : Config.fbufBytes < n.toNat) : ExecCase s (.fill gsel n) (s.raise .badLength)
  | invalidLb (h : s.ub.toInt < (trunc32 s.a0).toInt) : ExecCase s .uiSetlb (s.raise .invalidRange)
  | invalidUb (h : (trunc32 s.a0).toInt < s.lb.toInt) : ExecCase s .uiSetub (s.raise .invalidRange)
  | invalidRange (gsel : GSel) (h : (trunc32 s.a1).toInt < (trunc32 s.a0).toInt) :
      ExecCase s (.uiSamplerange gsel) (s.raise .invalidRange)
  | nullGenerator (i : Instr) (h : i.wf = true → ErrCode.nullGenerator ∈ mayRaise i) : ExecCase s i (s.raise .nullGenerator)
  | unseeded (i : Instr) (h : ErrCode.unseeded ∈ mayRaise i) : ExecCase s i (s.raise .unseeded)
  | fatal (i : Instr) (hi : i = .smSeedEnt ∨ i = .xoSeedEnt) (hr : s.entReq = false) (h : s.efatal = true) :
      ExecCase s i (s.raise .entropyUnavailable)
  | unavailable (i : Instr) (hi : i = .smSeedEnt ∨ i = .xoSeedEnt) (hr : s.entReq = false)
      (h : s.efatal = false ∧ s.entInit = false ∧ s.entAvail = false) :
      ExecCase s i (({ s with entInit := true, efatal := true } : State).raise .entropyUnavailable)
  | request (i : Instr) (hi : i = .smSeedEnt ∨ i = .xoSeedEnt) (hr : s.entReq = false) (hu : EntropyUsable s) :
      ExecCase s i ({ s with entInit := true } : State).wait
  | wait (i : Instr) (hi : i = .smSeedEnt ∨ i = .xoSeedEnt) (hr : s.entReq = true) (hv : s.entValid = false) : ExecCase s i s
  | reject (i : Instr) (gsel : GSel) (g : Gen) (lb ub : Half) (hi : Samples i s gsel lb ub)
      (hg : gselTarget gsel s.uiDef = some g) (hs : s.seeded g = true)
      (hr : uiAccept lb ub (draw64 g (s.workGens g)).2 = none) : ExecCase s i (s.reject (draw64 g (s.workGens g)).1)
  | nop : ExecCase s .nop s.finish
  | clrstat : ExecCase s .clrstat ({ s with ovr := false } : State).finish
  | smSeed : ExecCase s .smSeed ({ s with gens := { s.gens with smS := s.a0 }, smV := true } : State).finish
  | smSeedEnt (hr : s.entReq = true) (hv : s.entValid = true) :
      ExecCase s .smSeedEnt ({ s with gens := { s.gens with smS := s.entData }, smV := true, entValid := false } : State).finish
  | xoSetstate (h : ¬(s.a0 = 0 ∧ s.a1 = 0)) :
      ExecCase s .xoSetstate ({ s with gens := xoDiscard { s.gens with xoS1 := s.a0, xoS2 := s.a1 }, xoV := true } : State).finish
  | xoSeed : ExecCase s .xoSeed ({ s with gens := xoSeedRegs s.a0 s.gens, xoV := true } : State).finish
  | xoSeedEnt (hr : s.entReq = true) (hv : s.entValid = true) :
      ExecCase s .xoSeedEnt ({ s with gens := xoSeedRegs s.entData s.gens, xoV := true, entValid := false } : State).finish
  | next64 (gsel : GSel) (g : Gen) (hg : gselTarget gsel none = some g) (hs : s.seeded g = true) :
      ExecCase s (.next64 gsel) ({ s with gens := (draw64 g s.gens).1, res := (draw64 g s.gens).2 } : State).finish
  | next32 (gsel : GSel) (g : Gen) (hg : gselTarget gsel none = some g) (hs : s.seeded g = true) :
      ExecCase s (.next32 gsel) ({ s with gens := (draw64 g s.gens).1, res := zext64 (trunc32 (draw64 g s.gens).2) } : State).finish
  | fill (gsel : GSel) (n : BitVec 16) (g : Gen) (hn : n.toNat ≤ Config.fbufBytes) (hg : gselTarget gsel none = some g)
      (hs : s.seeded g = true) :
      ExecCase s (.fill gsel n)
        ({ s with
          gens := (drawMany g (fillDraws n.toNat) s.gens).2
          fbuf := fillBuffer n.toNat (drawMany g (fillDraws n.toNat) s.gens).1 s.fbuf } : State).finish
  | uiSetlb (h : (trunc32 s.a0).toInt ≤ s.ub.toInt) : ExecCase s .uiSetlb ({ s with lb := trunc32 s.a0 } : State).finish
  | uiSetub (h : s.lb.toInt ≤ (trunc32 s.a0).toInt) : ExecCase s .uiSetub ({ s with ub := trunc32 s.a0 } : State).finish
  | uiSetdef (gsel : GSel) : ExecCase s (.uiSetdef gsel) ({ s with uiDef := gselStored gsel } : State).finish
  | sample (i : Instr) (gsel : GSel) (g : Gen) (lb ub v : Half) (hi : Samples i s gsel lb ub)
      (hg : gselTarget gsel s.uiDef = some g) (hs : s.seeded g = true) (hv : uiAccept lb ub (draw64 g (s.workGens g)).2 = some v) :
      ExecCase s i ({ s with gens := (draw64 g (s.workGens g)).1, res := sext64 v } : State).finish
  | udSetdef (gsel : GSel) : ExecCase s (.udSetdef gsel) ({ s with udDef := gselStored gsel } : State).finish
  | udSample (gsel : GSel) (g : Gen) (hg : gselTarget gsel s.udDef = some g) (hs : s.seeded g = true) :
      ExecCase s (.udSample gsel) ({ s with gens := (draw64 g s.gens).1, res := udMap (draw64 g s.gens).2 } : State).finish

/-- A command that takes a next state takes one of the cases. -/
theorem exec_cases {i : Instr} {s t : State} (h : exec i s = .next t) : ExecCase s i t := by
  cases i <;> simp only [exec] at h
  case nop => injection h with h; subst h; exact .nop
  case clrstat => injection h with h; subst h; exact .clrstat
  case smSeed => injection h with h; subst h; exact .smSeed
  case xoSeed => injection h with h; subst h; exact .xoSeed
  case uiSetdef => injection h with h; subst h; exact .uiSetdef _
  case udSetdef => injection h with h; subst h; exact .udSetdef _
  case smSeedEnt =>
    rcases withEntropy_next h with ⟨hr, h1, rfl⟩ | ⟨hr, h1, h2, h3, rfl⟩ | ⟨hr, hu, rfl⟩ | ⟨hr, hv, rfl⟩ | ⟨hr, hv, rfl⟩
    · exact .fatal _ (.inl rfl) hr h1
    · exact .unavailable _ (.inl rfl) hr ⟨h1, h2, h3⟩
    · exact .request _ (.inl rfl) hr hu
    · exact .wait _ (.inl rfl) hr hv
    · exact .smSeedEnt hr hv
  case xoSeedEnt =>
    rcases withEntropy_next h with ⟨hr, h1, rfl⟩ | ⟨hr, h1, h2, h3, rfl⟩ | ⟨hr, hu, rfl⟩ | ⟨hr, hv, rfl⟩ | ⟨hr, hv, rfl⟩
    · exact .fatal _ (.inr rfl) hr h1
    · exact .unavailable _ (.inr rfl) hr ⟨h1, h2, h3⟩
    · exact .request _ (.inr rfl) hr hu
    · exact .wait _ (.inr rfl) hr hv
    · exact .xoSeedEnt hr hv
  case xoSetstate =>
    unfold execXoSetstate at h
    split at h
    · injection h with h; subst h; exact .zeroState ‹_›
    · injection h with h; subst h; exact .xoSetstate ‹_›
  case uiSetlb =>
    unfold execUiSetlb at h
    split at h
    · injection h with h; subst h; exact .uiSetlb (leI32_eq_true.1 ‹_›)
    · injection h with h; subst h; exact .invalidLb (leI32_eq_false.1 (by simpa using ‹¬leI32 _ _ = true›))
  case uiSetub =>
    unfold execUiSetub at h
    split at h
    · injection h with h; subst h; exact .uiSetub (leI32_eq_true.1 ‹_›)
    · injection h with h; subst h; exact .invalidUb (leI32_eq_false.1 (by simpa using ‹¬leI32 _ _ = true›))
  case next64 gsel =>
    rcases withGen_next h with ⟨hg, rfl⟩ | ⟨g, hg, hs, rfl⟩ | ⟨g, hg, hs, h⟩
    · exact .nullGenerator _ (by cases gsel <;> simp_all [Instr.wf, GSel.named, gselTarget])
    · exact .unseeded _ (by simp [mayRaise])
    · injection h with h; subst h; exact .next64 gsel g hg hs
  case next32 gsel =>
    rcases withGen_next h with ⟨hg, rfl⟩ | ⟨g, hg, hs, rfl⟩ | ⟨g, hg, hs, h⟩
    · exact .nullGenerator _ (by cases gsel <;> simp_all [Instr.wf, GSel.named, gselTarget])
    · exact .unseeded _ (by simp [mayRaise])
    · injection h with h; subst h; exact .next32 gsel g hg hs
  case fill gsel n =>
    unfold execFill at h
    split at h
    · injection h with h; subst h; exact .badLength gsel n ‹_›
    rename_i hn
    rcases withGen_next h with ⟨hg, rfl⟩ | ⟨g, hg, hs, rfl⟩ | ⟨g, hg, hs, h⟩
    · exact .nullGenerator _ (by cases gsel <;> simp_all [Instr.wf, GSel.named, gselTarget])
    · exact .unseeded _ (by simp [mayRaise])
    · injection h with h; subst h; exact .fill gsel n g (Nat.le_of_not_lt hn) hg hs
  case udSample gsel =>
    rcases withGen_next h with ⟨hg, rfl⟩ | ⟨g, hg, hs, rfl⟩ | ⟨g, hg, hs, h⟩
    · exact .nullGenerator _ (by cases gsel <;> simp_all [mayRaise, nullIfDefault, gselTarget])
    · exact .unseeded _ (by simp [mayRaise])
    · injection h with h; subst h; exact .udSample gsel g hg hs
  case uiSample gsel =>
    rcases withGen_next h with ⟨hg, rfl⟩ | ⟨g, hg, hs, rfl⟩ | ⟨g, hg, hs, h⟩
    · exact .nullGenerator _ (by cases gsel <;> simp_all [mayRaise, nullIfDefault, gselTarget])
    · exact .unseeded _ (by simp [mayRaise])
    · rcases uiMapTurn_next h with ⟨v, hv, rfl⟩ | ⟨hr, rfl⟩
      · exact .sample _ gsel g _ _ v (.inl ⟨rfl, rfl, rfl⟩) hg hs hv
      · exact .reject _ gsel g _ _ (.inl ⟨rfl, rfl, rfl⟩) hg hs hr
  case uiSamplerange gsel =>
    unfold execUiSamplerange at h
    split at h
    · rcases withGen_next h with ⟨hg, rfl⟩ | ⟨g, hg, hs, rfl⟩ | ⟨g, hg, hs, h⟩
      · exact .nullGenerator _ (by cases gsel <;> simp_all [mayRaise, nullIfDefault, gselTarget])
      · exact .unseeded _ (by simp [mayRaise])
      · rcases uiMapTurn_next h with ⟨v, hv, rfl⟩ | ⟨hr, rfl⟩
        · exact .sample _ gsel g _ _ v (.inr ⟨rfl, rfl, rfl⟩) hg hs hv
        · exact .reject _ gsel g _ _ (.inr ⟨rfl, rfl, rfl⟩) hg hs hr
    · injection h with h; subst h; exact .invalidRange gsel (leI32_eq_false.1 (by simpa using ‹¬leI32 _ _ = true›))

/-- A step that is a turn of the engine. -/
theorem step_of_engineMoves {s : State} (h : EngineMoves s) : step s = engineTurn { s with inputs := s.inputs.tail } := by
  rcases h with h | ⟨rest, h⟩
  · have e : ({ s with inputs := s.inputs.tail } : State) = s := by rw [h, List.tail_nil, ← h]
    rw [e]
    simp only [step, h]
  · simp only [step, h, List.tail_cons]

/-- All that a turn of the engine can do. -/
theorem engineTurn_cases {s t : State} (h : engineTurn s = .next t) :
    (s.inflight = none ∧ t = s) ∨
    (∃ f e, s.inflight = some f ∧ decode f.word = .error e ∧ t = s.raise .illegal) ∨
    ∃ f i, s.inflight = some f ∧ decode f.word = .ok i ∧ ExecCase s i t := by
  unfold engineTurn fetch at h
  cases hf : s.inflight with
  | none =>
    simp only [hf, Option.map_none] at h
    injection h with h
    exact .inl ⟨rfl, h.symm⟩
  | some f =>
    simp only [hf, Option.map_some] at h
    cases hd : decode f.word with
    | error e =>
      simp only [hd, raised] at h
      injection h with h
      exact .inr (.inl ⟨f, e, rfl, hd, h.symm⟩)
    | ok i =>
      simp only [hd] at h
      exact .inr (.inr ⟨f, i, rfl, hd, exec_cases h⟩)

/-- A sampling command with ordered bounds and a seeded generator takes one turn of the mapper (R248, R249). -/
theorem exec_of_samples {i : Instr} {gsel : GSel} {g : Gen} {lb ub : Half} {s : State} (hi : Samples i s gsel lb ub)
    (hle : lb.toInt ≤ ub.toInt) (hg : gselTarget gsel s.uiDef = some g) (hs : s.seeded g = true) :
    exec i s = uiMapTurn lb ub g s := by
  rcases hi with ⟨rfl, rfl, rfl⟩ | ⟨rfl, rfl, rfl⟩
  · exact withGen_of_seeded _ hg hs
  · simp only [exec, execUiSamplerange, if_pos (leI32_eq_true.2 hle)]
    exact withGen_of_seeded _ hg hs

end Sys2Proof.Machine
end

