-- ==== Sys2Proof/Laws/PerInstr.lean ====
section
/-! SUPPORT. Statements made for every command, one lemma per constructor. -/

/-- The fields of the encoding of a command are its OPC, GSEL and LEN, with RSV and the upper half 0 (30_encoding.md R110 to R116). -/
def Sys2Proof.Laws.EncodedFields.Statement (i : Sys2Proof.Instr) : Prop :=
  Sys2Proof.fieldUpper (Sys2Proof.encode i) = 0 ∧ Sys2Proof.fieldRsv (Sys2Proof.encode i) = 0 ∧
    Sys2Proof.fieldOpc (Sys2Proof.encode i) = i.opc ∧ Sys2Proof.fieldGsel (Sys2Proof.encode i) = i.gsel.bits ∧
    Sys2Proof.fieldLen (Sys2Proof.encode i) = i.len

namespace Sys2Proof.Laws

open Sys2Proof

/-- The fields of any packed command. -/
theorem encodedFields (i : Instr) : EncodedFields.Statement i := by
  simp [EncodedFields.Statement, encode]

theorem EncodedFields.nop : EncodedFields.Statement .nop := encodedFields _
theorem EncodedFields.clrstat : EncodedFields.Statement .clrstat := encodedFields _
theorem EncodedFields.smSeed : EncodedFields.Statement .smSeed := encodedFields _
theorem EncodedFields.smSeedEnt : EncodedFields.Statement .smSeedEnt := encodedFields _
theorem EncodedFields.xoSetstate : EncodedFields.Statement .xoSetstate := encodedFields _
theorem EncodedFields.xoSeed : EncodedFields.Statement .xoSeed := encodedFields _
theorem EncodedFields.xoSeedEnt : EncodedFields.Statement .xoSeedEnt := encodedFields _
theorem EncodedFields.next64 (gsel : GSel) : EncodedFields.Statement (.next64 gsel) := encodedFields _
theorem EncodedFields.next32 (gsel : GSel) : EncodedFields.Statement (.next32 gsel) := encodedFields _
theorem EncodedFields.fill (gsel : GSel) (len : BitVec 16) : EncodedFields.Statement (.fill gsel len) := encodedFields _
theorem EncodedFields.uiSetlb : EncodedFields.Statement .uiSetlb := encodedFields _
theorem EncodedFields.uiSetub : EncodedFields.Statement .uiSetub := encodedFields _
theorem EncodedFields.uiSetdef (gsel : GSel) : EncodedFields.Statement (.uiSetdef gsel) := encodedFields _
theorem EncodedFields.uiSample (gsel : GSel) : EncodedFields.Statement (.uiSample gsel) := encodedFields _
theorem EncodedFields.uiSamplerange (gsel : GSel) : EncodedFields.Statement (.uiSamplerange gsel) := encodedFields _
theorem EncodedFields.udSetdef (gsel : GSel) : EncodedFields.Statement (.udSetdef gsel) := encodedFields _
theorem EncodedFields.udSample (gsel : GSel) : EncodedFields.Statement (.udSample gsel) := encodedFields _

end Sys2Proof.Laws
end

