-- ==== Sys2Proof/Tests/Slice0.lean ====
section
/-! SUPPORT. Tests. Expected values come from spec/95_test_vectors.md (V-…) and the worked examples of the rules, never from the model. The last
part shows, for each statement with hypotheses, concrete values that meet them. -/

namespace Sys2Proof.Tests

open Sys2Proof Sys2Proof.Machine Sys2Proof.Safety

/-! ## Helpers -/

/-- A base address for the window. -/
def base : Nat := 0xFED00000

/-- The reset state with known values in place of the free ones: SM_S = 0, the state (1, 2) of Xoroshiro128+, an FBUF of zeros, and a known ENGINE_BASE. -/
def idle : State :=
  { State.reset with gens := { smS := 0, xoS1 := 1, xoS2 := 2 }, fbuf := Vector.replicate 256 0, engineBase := base }

/-- The same with both generators seeded. -/
def seeded : State := { idle with smV := true, xoV := true }

/-- A command as R150 accepts it. -/
def command (w a0 a1 : Word) : InFlight := { word := w, a0 := a0, a1 := a1, draws := 0, pending := none, waiting := false }

/-- `s` with a command in flight. -/
def running (s : State) (w a0 a1 : Word) : State := { s with inflight := some (command w a0 a1) }

/-- The result is a next state of which `p` holds. -/
def next (r : Result) (p : State → Bool) : Bool :=
  match r with
  | .next t => p t
  | .fault _ => false
  | .refused _ => false

/-- `n` steps, each from the state the one before left. -/
def steps (n : Nat) (s : State) (p : State → Bool) : Bool := next (core.run n s) p

/-! ## WellFormed and Decode -/

-- R114: GSEL 00 is no operand of the three draw commands; every other command is well formed.
theorem test_wf_next64_def : (Instr.next64 .dflt).wf = false := by decide
theorem test_wf_next32_def : (Instr.next32 .dflt).wf = false := by decide
theorem test_wf_fill_def : (Instr.fill .dflt 8).wf = false := by decide
theorem test_wf_sample_def : (Instr.uiSample .dflt).wf = true := by decide
theorem test_ill_formed_not_decoded : decode (encode (.next64 .dflt)) = .error .gsel := by decide

-- The words are written out from the fields of R111 and the OPC column of R118, bit by bit or as the rule of the command prints them.
theorem test_decode_nop : decode 0x00000000 = .ok .nop := by decide
theorem test_decode_clrstat : decode 0x00000001 = .ok .clrstat := by decide
theorem test_decode_smSeed : decode 0b00000000000000000000000000010000 = .ok .smSeed := by decide
theorem test_decode_smSeedEnt : decode 0x00000011 = .ok .smSeedEnt := by decide
theorem test_decode_xoSetstate : decode 0b00000000000000000000000000100000 = .ok .xoSetstate := by decide
theorem test_decode_xoSeed : decode 0x00000021 = .ok .xoSeed := by decide
theorem test_decode_xoSeedEnt : decode 0x00000022 = .ok .xoSeedEnt := by decide
theorem test_decode_next64 : decode 0b00000000000000000000000100110000 = .ok (.next64 .sm) ∧ decode 0x00000230 = .ok (.next64 .xo) := by decide
theorem test_decode_next32 : decode 0x00000131 = .ok (.next32 .sm) ∧ decode 0x00000231 = .ok (.next32 .xo) := by decide
theorem test_decode_fill : decode 0b00000000000010100000001000110010 = .ok (.fill .xo 10) ∧ decode 0xFFFF0132 = .ok (.fill .sm 0xFFFF) := by decide
theorem test_decode_uiSetlb : decode 0b00000000000000000000000001000000 = .ok .uiSetlb := by decide
theorem test_decode_uiSetub : decode 0x00000041 = .ok .uiSetub := by decide
theorem test_decode_uiSetdef :
    decode 0x00000042 = .ok (.uiSetdef .dflt) ∧ decode 0x00000142 = .ok (.uiSetdef .sm) ∧ decode 0x00000242 = .ok (.uiSetdef .xo) := by decide
theorem test_decode_uiSample :
    decode 0x00000043 = .ok (.uiSample .dflt) ∧ decode 0x00000143 = .ok (.uiSample .sm) ∧ decode 0x00000243 = .ok (.uiSample .xo) := by decide
theorem test_decode_uiSamplerange :
    decode 0x00000044 = .ok (.uiSamplerange .dflt) ∧ decode 0x00000144 = .ok (.uiSamplerange .sm) ∧
      decode 0x00000244 = .ok (.uiSamplerange .xo) := by decide
theorem test_decode_udSetdef :
    decode 0b00000000000000000000000001010000 = .ok (.udSetdef .dflt) ∧ decode 0x00000250 = .ok (.udSetdef .xo) := by decide
theorem test_decode_udSample : decode 0b00000000000000000000000101010001 = .ok (.udSample .sm) ∧ decode 0x00000051 = .ok (.udSample .dflt) := by decide

-- V-EN-3 to V-EN-11: illegal words.
theorem test_illegal_words :
    decode 0x30 = .error .gsel ∧ decode 0x330 = .error .gsel ∧ decode 0x430 = .error .reservedBits ∧ decode 0x100000130 = .error .upperHalf ∧
      decode 0xFF = .error .opcode ∧ decode 0x110 = .error .gsel ∧ decode 0x10043 = .error .len ∧ decode 0x342 = .error .gsel := by decide

-- R119: each field is checked over its whole width.
theorem test_illegal_top_bits :
    decode 0x8000000000000130 = .error .upperHalf ∧ decode 0x8130 = .error .reservedBits ∧ decode 0x80000130 = .error .len ∧
      decode 0x02 = .error .opcode := by decide

theorem test_table_word : decodeTableWord 32 0x000A0232 = some (.fill .xo 10) ∧ decodeTableWord 32 0x00000030 = none := by decide

-- R123: the assembler lines of the examples.
theorem test_assembler :
    assemblerLine (.next64 .xo) = "NEXT64 xo" ∧ assemblerLine (.fill .sm 10) = "FILL sm, 10" ∧ assemblerLine (.uiSample .dflt) = "UI_SAMPLE def" ∧
      assemblerLine (.uiSetdef .dflt) = "UI_SETDEF none" ∧ assemblerLine .xoSeed = "XO_SEED" := by decide

/-! ## One step of each command -/

-- R159: V-ER-11, NOP clears ERR.
theorem test_nop : next (step (running { idle with err := .badLength } 0x00 0 0)) (fun t => t.err == .ok && t.inflight.isNone) := by decide
-- R160: OVR cleared, EFATAL kept.
theorem test_clrstat :
    next (step (running { idle with ovr := true, efatal := true, entInit := true } 0x01 0 0)) (fun t => !t.ovr && t.efatal && t.entInit) := by
  decide
-- R185, R187: no discard.
theorem test_smSeed : next (step (running idle 0x10 0x0123456789ABCDEF 0)) (fun t => t.gens.smS == 0x0123456789ABCDEF && t.smV && !t.xoV) := by
  decide
-- R186: the delivered word becomes SM_S. V-ER-6: the facility is not there.
theorem test_smSeedEnt :
    steps 2 (running { idle with entValid := true, entData := 77 } 0x11 0 0) (fun t => t.gens.smS == 77 && t.smV && t.entInit && !t.efatal) := by
  decide
theorem test_smSeedEnt_unavailable :
    next (step (running { idle with entAvail := false } 0x11 0 0)) (fun t => t.err.code == 5 && t.entInit && t.efatal && !t.smV) := by
  decide
-- V-XO-6: (1, 0) is legal. V-XO-5: (0, 0) is not.
theorem test_xoSetstate :
    next (step (running idle 0x20 1 0)) (fun t => t.gens.xoS1 == 0x0080000000004001 && t.gens.xoS2 == 0x0000001000000000 && t.xoV) := by
  decide
theorem test_xoSetstate_zero : next (step (running seeded 0x20 0 0)) (fun t => t.err.code == 6 && t.gens == seeded.gens && t.xoV) := by decide
-- V-XO-3: after XO_SEED 0 the first output is the sum of the state words.
theorem test_xoSeed : next (step (running idle 0x21 0 0)) (fun t => t.gens.xoS1 + t.gens.xoS2 == 0x00885667B1934BFA && t.gens.smS == 0) := by
  decide
-- V-XO-7: the same with the entropy word 0. R96: the first turn requests a word, and takes none although ENT_VALID is 1.
theorem test_xoSeedEnt :
    steps 2 (running { idle with entValid := true, entData := 0 } 0x22 9 9)
      (fun t => t.gens.xoS1 + t.gens.xoS2 == 0x00885667B1934BFA && t.xoV && !t.entValid) := by decide
theorem test_xoSeedEnt_requests :
    next (step (running { idle with entValid := true } 0x22 0 0)) (fun t => t.busy && t.entReq && !t.xoV && t.entValid) := by decide
-- V-SM-1. V-XO-1: the discarded word of (1, 2) is 3.
theorem test_next64_sm :
    next (step (running seeded 0x130 0 0)) (fun t => t.res == 0xE220A8397B1DCDAF && t.gens.smS == 0x9E3779B97F4A7C15) := by decide
theorem test_next64_xo : next (step (running seeded 0x230 0 0)) (fun t => t.res == 3 && t.gens.smS == 0) := by decide
-- V-BG-1: the second draw of seed 0.
theorem test_next32 :
    next (step (running { seeded with gens := { seeded.gens with smS := 0x9E3779B97F4A7C15 } } 0x131 0 0)) (fun t => t.res == 0x00000000A1B965F4) := by
  decide
-- V-BG-5: FILL sm, 10 from seed 0. V-EN-13.
theorem test_fill :
    next (step (running seeded 0x000A0132 0 0))
      (fun t => (List.range 11).map (fun k => t.fbuf.toList.getD k 1) ==
        [0xAF, 0xCD, 0x1D, 0x7B, 0x39, 0xA8, 0x20, 0xE2, 0xF4, 0x65, 0x00] && t.gens.smS == 0x3C6EF372FE94F82A) := by decide +kernel
theorem test_fill_badLength : next (step (running idle 0x01010232 0 0)) (fun t => t.err.code == 7) := by decide
-- V-UI-31. V-ER-10.
theorem test_uiSetlb : next (step (running idle 0x40 0xFFFFFFFF00000005 0)) (fun t => t.lb == 5 && t.err == .ok) := by decide
theorem test_uiSetlb_invalid : next (step (running { idle with ub := 9 } 0x40 10 0)) (fun t => t.err.code == 2 && t.lb == 0 && t.ub == 9) := by
  decide
-- R241: UB = LB is legal. V-UI-32: the comparison is signed.
theorem test_uiSetub : next (step (running { idle with lb := 5 } 0x41 5 0)) (fun t => t.ub == 5 && t.err == .ok) := by decide
theorem test_uiSetub_signed : next (step (running idle 0x41 0xFFFFFFFF 0)) (fun t => t.err.code == 2 && t.ub == 0x7FFFFFFF) := by decide
-- R242: CFG[1:0] = 1.
theorem test_uiSetdef : next (step (running idle 0x142 0 0)) (fun t => t.cfgWord == 1) := by decide
-- V-UI-14, from SM seed 0. V-ER-2.
theorem test_uiSample :
    next (step (running { seeded with lb := 0xFFFFFFFB, ub := 5 } 0x143 0 0)) (fun t => t.res == 4 && t.inflight.isNone) := by decide
theorem test_uiSample_unseeded : next (step (running { idle with uiDef := some .sm } 0x43 0 0)) (fun t => t.err.code == 4) := by decide
-- V-UI-28, the full range. V-ER-4: INVALID_RANGE ranks before NULL_GENERATOR.
theorem test_uiSamplerange :
    next (step (running seeded 0x144 0x80000000 0x7FFFFFFF)) (fun t => t.res == 0xFFFFFFFFFB1DCDAF && t.lb == 0 && t.ub == 0x7FFFFFFF) := by
  decide
theorem test_uiSamplerange_invalid : next (step (running idle 0x44 5 3)) (fun t => t.err.code == 2) := by decide
-- R273: CFG[3:2] = 2.
theorem test_udSetdef : next (step (running idle 0x250 0 0)) (fun t => t.cfgWord == 8) := by decide
-- V-UD-11. V-ER-3.
theorem test_udSample : next (step (running seeded 0x151 0 0)) (fun t => t.res == 0x3FEC4415072F63B8) := by decide
theorem test_udSample_null : next (step (running idle 0x51 0 0)) (fun t => t.err.code == 3) := by decide

/-! ## The datapaths -/

-- R301: the numbers of the codes that the vectors V-ER name.
theorem test_error_codes : [ErrCode.illegal.code, ErrCode.invalidRange.code, ErrCode.entropyUnavailable.code] = [1, 2, 5] := by decide


-- V-SM-2 to V-SM-6.
theorem test_smStep :
    smStep 1 = (0x9E3779B97F4A7C16, 0x910A2DEC89025CC1) ∧ smStep 0xFFFFFFFFFFFFFFFF = (0x9E3779B97F4A7C14, 0xE4D971771B652C20) ∧
      smStep 0x61C8864680B583EB = (0, 0) ∧ smStep 0x0123456789ABCDEF = (0x9F5ABF2108F64A04, 0x157A3807A48FAA9D) := by decide
-- R10's instances.
theorem test_rotateLeft : rotateLeft 1 55 = 0x0080000000000000 ∧ rotateLeft 3 36 = 0x0000003000000000 := by decide
-- V-UI-3, V-UI-5, V-UI-8, V-UI-11, V-UI-18, V-UI-20.
theorem test_uiAccept :
    uiAccept 0 9 0xFFFFFFFFFFFFFFFA = none ∧ uiAccept 0 9 0x1999999999999999 = some 1 ∧ uiAccept 0 9 0xFFFFFFFFFFFFFFF9 = some 9 ∧
      uiAccept 0xFFFFFFFF 0 0xFFFFFFFFFFFFFFFE = none ∧ uiAccept 0x80000000 0x7FFFFFFE 0xFFFFFFFFFFFFFFFE = some 0x7FFFFFFE ∧
      uiAccept 0x80000000 0 0x7FFFFFFFFFFFFFFF = some 0xC0000000 := by decide
-- V-UD-2 to V-UD-6, V-UD-8, V-UD-10.
theorem test_udMap :
    udMap 0xFFF = 0 ∧ udMap 0x1000 = 0x3CB0000000000000 ∧ udMap 0x2000 = 0x3CC0000000000000 ∧ udMap 0xFFFFFFFFFFFFFFFF = 0x3FEFFFFFFFFFFFFE ∧
      udMap 0x8000000000000000 = 0x3FE0000000000000 ∧ udMap 0xC000000000000000 = 0x3FE8000000000000 ∧
      udMap 0x123456789ABCDEF0 = 0x3FB23456789ABCD0 := by decide

/-! ## The host's port and the step -/

-- V-ER-12: a CMD write while BUSY = 1 is dropped and sets OVR.
theorem test_overrun :
    next (step { running idle 0x10 5 0 with inputs := [.write (base + 0x000) 8 0x21] })
      (fun t => t.ovr && t.inflight == some (command 0x10 5 0)) := by decide
-- R150: ARG0, ARG1, CMD and the engine's turn: SM_SEED 5.
theorem test_host_sequence :
    steps 3 { idle with inputs := [.write (base + 0x010) 8 5, .write (base + 0x000) 8 0x10, .engine] } (fun t => t.gens.smS == 5 && t.smV && !t.busy) := by
  decide
-- R71: LB reads sign-extended (V-UI-33), and an unmapped offset reads 0.
theorem test_read_lb :
    steps 2 { idle with lb := 0xFFFFFFFB, inputs := [.read (base + 0x028) 8, .read (base + 0x040) 8] } (fun t => t.readData == [0, 0xFFFFFFFFFFFFFFFB]) := by
  decide
-- R341: STATUS after reset is 0, CFG is 0, and UB is 0x7FFFFFFF.
theorem test_read_after_reset :
    steps 3 { State.reset with engineBase := base, inputs := [.read (base + 0x008) 8, .read (base + 0x038) 8, .read (base + 0x030) 8] } (fun t => t.readData == [0x7FFFFFFF, 0, 0]) := by
  decide
-- R81: FBUF word 1 is bytes 15 to 8.
theorem test_read_fbuf :
    steps 1 { idle with fbuf := Vector.ofFn fun i => BitVec.ofNat 8 i.val, inputs := [.read (base + 0x108) 8] }
      (fun t => t.readData == [0x0F0E0D0C0B0A0908]) := by decide +kernel
-- R78: BUSY reads 1 while a command runs, whatever the free value.
theorem test_status_busy_bit : ∀ b : BitVec 9, ((0#54 ++ b ++ 1#1 : BitVec 64)).getLsbD 0 = true := by decide
-- R340: a reset ends the command in flight.
theorem test_reset :
    next (step { running seeded 0x43 0 0 with inputs := [.reset] }) (fun t => !t.busy && !t.smV && t.ub == 0x7FFFFFFF && t.freeCtr == 518) := by
  decide
-- R245, V-UI-3: a rejected draw keeps the command in flight, then the next draw is accepted.
theorem test_rejection :
    next (step (running { seeded with gens := { smS := 0, xoS1 := 0xFFFFFFFFFFFFFFFA, xoS2 := 0 }, ub := 9 } 0x243 0 0))
      (fun t => t.busy && t.gens.xoS1 == 0xFFFFFFFFFFFFFFFA && t.res == 0) := by decide
-- The very next step runs the word: from reset, UI_SETDEF xo and (V-EN-2) NEXT64 xo.
theorem test_withFetchWord :
    next (step (State.reset.withFetchWord 32 0x242)) (fun t => t.uiDef == some .xo && t.inputs.isEmpty) ∧
      next (step (State.reset.withFetchWord 32 0x230)) (fun t => t.err.code == 4) := by decide
-- R124, R125: the lines of DO1 SM_SEED, 5 run to their end on the engine: WR, ISSUE, the engine's turn, the label, RD and the branch not taken.
theorem test_host_program :
    (match hostTurn { lines := do1Lines .smSeed 5 0 0, pc := 0, vars := [] } idle with
      | .next (h, s) =>
        match hostTurn h s with
        | .next (h, s) =>
          match engineMove h s with
          | .next (h, s) =>
            match hostTurn h s with
            | .next (h, s) =>
              match hostTurn h s with
              | .next (h, s) =>
                match hostTurn h s with
                | .next (h, s) => h.pc == 5 && s.gens.smS == 5 && h.value 0 == 0x100
                | _ => false
              | _ => false
            | _ => false
          | _ => false
        | _ => false
      | _ => false) = true := by decide

/-! ## Witnesses: values that meet the hypotheses of each statement, together -/

theorem witness_DecodeOfEncodeIsTheCommand : (Instr.fill .xo 0xFFFF).wf = true := by decide

theorem witness_EncodeOfDecodeIsTheWord : decode 0xFFFF0232 = .ok (.fill .xo 0xFFFF) := by decide

theorem witness_DecodeFollowsTheOpcodeMap : decode 0x00000251 = .ok (.udSample .xo) := by decide

-- Both ways of the engine's turn: an empty queue, and the engine's turn at its head.
theorem witness_StepRunsTheDecodedCommand :
    (EngineMoves (running idle 0x10 5 0) ∧ (running idle 0x10 5 0).inflight = some (command 0x10 5 0) ∧
      decode (command 0x10 5 0).word = .ok .smSeed) ∧
    EngineMoves { running idle 0x10 5 0 with inputs := [.engine, .reset] } :=
  ⟨⟨.inl rfl, rfl, by decide⟩, .inr ⟨_, rfl⟩⟩

theorem witness_IllegalWordRaisesIllegal :
    EngineMoves (running idle 0x330 0 0) ∧ (running idle 0x330 0 0).inflight = some (command 0x330 0 0) ∧ ¬ LegalWrite (command 0x330 0 0).word :=
  ⟨.inl rfl, rfl, by unfold LegalWrite; decide⟩

theorem witness_IdleEngineKeepsAllState : EngineMoves idle ∧ idle.busy = false := ⟨.inl rfl, rfl⟩

-- Both directions of StepStopsOnlyOnUndefinedAccesses: a safe event and one that is not.
theorem witness_StepStopsOnlyOnUndefinedAccesses :
    SafeInput base (.read (base + 0xFF8) 8) ∧ ¬ SafeInput base (.read (base + 0x1000) 8) ∧ ¬ SafeInput base (.write (base + 4) 4 0) := by
  simp only [SafeInput, windowBytes]
  refine ⟨⟨0xFF8, by decide⟩, ?_, ?_⟩ <;> (rintro ⟨off, h⟩; omega)

-- The two causes, at the edges of the window.
theorem witness_NarrowOrMisalignedAccessIsRefused :
    ((0xFFF : Nat) < 4096 ∧ ((8 : Nat) ≠ 8 ∨ (0xFFF : Nat) % 8 ≠ 0)) ∧ ((0 : Nat) < 4096 ∧ ((4 : Nat) ≠ 8 ∨ (0 : Nat) % 8 ≠ 0)) := by decide

-- Below the window and just above it, and a step of each kind.
theorem witness_TheWindowStandsAtEngineBase :
    (base - 1 < idle.engineBase) ∧ (idle.engineBase + 4096 ≤ base + 0x1000) ∧ next (step idle) (fun _ => true) ∧
      next (step { idle with inputs := [.reset] }) (fun t => t.engineBase == base) := by decide

/-- The invariant holds of a state with both generators seeded. -/
theorem seeded_inv : EngineInv seeded where
  bounds := by decide
  xo := by unfold XoNonzero; decide
  xoPending := by rintro f r ⟨⟩
  entropy := by rintro ⟨⟩
  request := by rintro ⟨⟩

theorem witness_StepKeepsInv : ∃ t, EngineInv seeded ∧ step seeded = .next t := ⟨_, seeded_inv, rfl⟩

/-- A state in which both entropy flags are set, with a NOP in flight. -/
def afterFailure : State := running { idle with efatal := true, entInit := true } 0x00 0 0

theorem witness_OnlyResetClearsEntropyFlags :
    ∃ t, step afterFailure = .next t ∧ afterFailure.inputs.head? ≠ some .reset ∧ afterFailure.efatal = true ∧ afterFailure.entInit = true :=
  ⟨_, rfl, by decide, rfl, rfl⟩

-- A flag that becomes set, of each generator, and one that is set already.
theorem witness_SeededFlagsAreSetOnlyBySeeding :
    (running idle 0x10 5 0).inflight = some (command 0x10 5 0) ∧
    next (exec .smSeed (running idle 0x10 5 0)) (fun t => !idle.smV && t.smV && t.err == .ok && t.inflight.isNone) ∧
    next (exec .xoSeed (running idle 0x21 5 0)) (fun t => !idle.xoV && t.xoV && t.err == .ok && t.inflight.isNone) ∧
    next (exec .nop (running seeded 0x00 0 0)) (fun t => seeded.smV && seeded.xoV && t.smV && t.xoV) := by decide

theorem witness_HostAccessesDoNotSeeGeneratorState :
    (∃ t, step { idle with inputs := [.read (base + 0x020) 8] } = .next t) ∧
    ∃ t f, (running idle 0x10 5 0).inflight = some f ∧ step { running idle 0x10 5 0 with inputs := [.write (base + 0x1F8) 8 7] } = .next t :=
  ⟨⟨_, rfl⟩, _, _, rfl, rfl⟩

theorem witness_ResIsWrittenOnlyByTheFiveCommands :
    EngineMoves (running seeded 0x130 0 0) ∧ next (step (running seeded 0x130 0 0)) (fun t => t.res != seeded.res) :=
  ⟨.inl rfl, by decide⟩

-- A command that raises, one with and one without ENTROPY_UNAVAILABLE.
theorem witness_ErrorsArePrecise :
    (EngineMoves (running idle 0x20 0 0) ∧ (running idle 0x20 0 0).inflight = some (command 0x20 0 0) ∧
      next (step (running idle 0x20 0 0)) (fun t => t.inflight.isNone && t.err != .ok && t.err != .entropyUnavailable)) ∧
    next (step (running { idle with entAvail := false } 0x11 0 0)) (fun t => t.inflight.isNone && t.err == .entropyUnavailable) :=
  ⟨⟨.inl rfl, rfl, by decide⟩, by decide⟩

theorem witness_CommandsRaiseOnlyTheirCodes :
    (Instr.next64 .sm).wf = true ∧ (running idle 0x130 0 0).inflight = some (command 0x130 0 0) ∧
    next (exec (.next64 .sm) (running idle 0x130 0 0)) (fun t => t.inflight.isNone && t.err == .unseeded) := by decide

/-- An entropy command that has requested a word, with the word 7 delivered. -/
def requested (w : Word) : State :=
  { idle with inflight := some { command w 0 0 with waiting := true }, entInit := true, entValid := true, entData := 7 }

-- Each register that a clause names is written by some command.
theorem witness_CommandsWriteOnlyWhatTheyOwn :
    next (exec .uiSetlb (running idle 0x40 1 0)) (fun t => t.lb != idle.lb) ∧
    next (exec .uiSetub (running idle 0x41 1 0)) (fun t => t.ub != idle.ub) ∧
    next (exec (.uiSetdef .sm) (running idle 0x142 0 0)) (fun t => t.uiDef != idle.uiDef) ∧
    next (exec (.udSetdef .xo) (running idle 0x250 0 0)) (fun t => t.udDef != idle.udDef) ∧
    next (exec (.fill .sm 8) (running seeded 0x00080132 0 0)) (fun t => t.fbufByte 0 != seeded.fbufByte 0) ∧
    next (exec .clrstat (running { idle with ovr := true } 0x01 0 0)) (fun t => t.ovr != true) ∧
    next (exec .smSeedEnt (running { idle with entValid := true } 0x11 0 0)) (fun t => t.entInit != idle.entInit) ∧
    next (exec .smSeedEnt (requested 0x11)) (fun t => t.entValid != true) ∧
    next (exec (.next64 .xo) (running seeded 0x230 0 0)) (fun t => t.gens.xoS1 != seeded.gens.xoS1) ∧
    next (exec .smSeedEnt (running { idle with entAvail := false } 0x11 0 0)) (fun t => t.efatal != idle.efatal) ∧
    next (exec (.next64 .sm) (running seeded 0x130 0 0)) (fun t => t.gens.smS != seeded.gens.smS) := by decide +kernel

-- The facility found unavailable before, and at the first use.
theorem witness_EntropyCommandsRaiseWhenUnavailable :
    afterFailure.entReq = false ∧ afterFailure.efatal = true ∧
    (let s := running { idle with entAvail := false } 0x11 0 0
     s.entReq = false ∧ s.efatal = false ∧ s.entInit = false ∧ s.entAvail = false) := by decide

-- Usable at the first use, and usable since it has been initialised although it is not available now; and a request without a word.
theorem witness_EntropyCommandsRequestAWordAndWait :
    ((running idle 0x11 0 0).inflight = some (command 0x11 0 0) ∧ (running idle 0x11 0 0).entReq = false ∧ EntropyUsable (running idle 0x11 0 0)) ∧
    EntropyUsable (running { idle with entInit := true, entAvail := false } 0x11 0 0) ∧
    (∃ f, (requested 0x11).inflight = some f) ∧ ({ requested 0x11 with entValid := false } : State).entReq = true := by
  unfold EntropyUsable
  exact ⟨by decide, by decide, ⟨_, rfl⟩, rfl⟩

-- A word requested before, and a command just accepted with the word already there.
theorem witness_SmSeedEntCompletesWithTheWord :
    (∃ f, (requested 0x11).inflight = some f) ∧ (requested 0x11).entValid = true ∧ (requested 0x11).entReq = true ∧
    (let s := running { idle with entValid := true } 0x11 0 0
     s.inflight = some (command 0x11 0 0) ∧ s.entValid = true ∧ s.entReq = false ∧ EntropyUsable s) := by
  unfold EntropyUsable
  exact ⟨⟨_, rfl⟩, by decide⟩

theorem witness_XoSeedEntIsXoSeedOfTheWord :
    (∃ f, (requested 0x22).inflight = some f) ∧ (requested 0x22).entValid = true ∧ (requested 0x22).entReq = true ∧
    (let s := running { idle with entValid := true } 0x22 0 0
     s.inflight = some (command 0x22 0 0) ∧ s.entValid = true ∧ s.entReq = false ∧ EntropyUsable s) := by
  unfold EntropyUsable
  exact ⟨⟨_, rfl⟩, by decide⟩

-- One word not 0, the other not 0, and both 0.
theorem witness_XoSetstateSetsAndDiscards :
    ¬((running idle 0x20 1 0).a0 = 0 ∧ (running idle 0x20 1 0).a1 = 0) ∧ ¬((running idle 0x20 0 1).a0 = 0 ∧ (running idle 0x20 0 1).a1 = 0) ∧
    ((running idle 0x20 0 0).a0 = 0 ∧ (running idle 0x20 0 0).a1 = 0) := by decide

theorem witness_XoSeedExpandsTheSeed : ∃ w1 w2 : Word, w1 = smMix ((running idle 0x21 5 0).a0 + gamma) ∧
    w2 = smMix ((running idle 0x21 5 0).a0 + gamma + gamma) := ⟨_, _, rfl, rfl⟩

theorem witness_Next64AndNext32TakeOneDraw :
    (gselTarget .sm none = some .sm ∧ seeded.seeded .sm = true) ∧ (gselTarget .xo none = some .xo ∧ seeded.seeded .xo = true) := by decide

-- The longest fill, the shortest, and one that ends inside a word: every clause has a byte.
theorem witness_FillWritesTheDrawsLittleEndian :
    gselTarget .xo none = some .xo ∧ seeded.seeded .xo = true ∧ (256 : BitVec 16).toNat ≤ 256 ∧ (0 : BitVec 16).toNat ≤ 256 ∧
    (255 : Fin 256).val < (256 : BitVec 16).toNat ∧ (9 : Fin 256).val < (10 : BitVec 16).toNat ∧ (10 : BitVec 16).toNat ≤ (10 : Fin 256).val ∧
    (0 : BitVec 16).toNat ≤ (0 : Fin 256).val := by decide

theorem witness_FillOfWholeWordsEqualsNext64s :
    gselTarget .sm none = some .sm ∧ seeded.seeded .sm = true ∧ 32 ≤ 32 ∧ (31 : Fin 32).val < 32 := by decide

theorem witness_SplitFillAtAWordBoundary :
    gselTarget .sm none = some .sm ∧ seeded.seeded .sm = true ∧ 248 % 8 = 0 ∧ 248 + 8 ≤ 256 ∧ (247 : Fin 256).val < 248 ∧
    (7 : Fin 256).val < 8 ∧ (255 : Fin 256).val = 248 + (7 : Fin 256).val := by decide

-- Each comparison at its edge, with LB = 0 and UB = 0x7FFFFFFF and the operand 0, and with LB = 5, UB = 9 and the operands 10 and 4.
theorem witness_SetBoundsCheckTheOrder :
    let s := running idle 0x40 0x7FFFFFFF 0
    let t := running { idle with lb := 5, ub := 9 } 0x40 10 0
    let u := running { idle with lb := 5, ub := 9 } 0x41 4 0
    (trunc32 s.a0).toInt ≤ s.ub.toInt ∧ t.ub.toInt < (trunc32 t.a0).toInt ∧ s.lb.toInt ≤ (trunc32 s.a0).toInt ∧
      (trunc32 u.a0).toInt < u.lb.toInt := by decide

/-- The accesses of SET_BOUNDS −5, 5 (V-UI-33). -/
def setBoundsInputs : List Input :=
  [.write (base + 0x010) 8 0x80000000, .write (base + 0x000) 8 0x40, .engine, .write (base + 0x010) 8 (zext64 5), .write (base + 0x000) 8 0x41, .engine,
    .write (base + 0x010) 8 (zext64 0xFFFFFFFB), .write (base + 0x000) 8 0x40, .engine]

theorem witness_SetBoundsSequenceNeverRaises :
    ({ idle with inputs := setBoundsInputs } : State).inflight = none ∧ idle.lb.toInt ≤ idle.ub.toInt ∧
    (0xFFFFFFFB : Half).toInt ≤ (5 : Half).toInt ∧ ({ idle with inputs := setBoundsInputs } : State).inputs = setBoundsInputs := by decide

-- The command words of the sequence are those that SET_BOUNDS issues (R125).
theorem test_setBoundsLines :
    (setBoundsLines 0xFFFFFFFB 5 0 0).filter (fun x => match x with | .wr _ _ => true | .issue _ => true | _ => false) =
      [.wr .arg0 0x80000000, .issue 0x40, .wr .arg0 (zext64 5), .issue 0x41, .wr .arg0 (zext64 0xFFFFFFFB), .issue 0x40] := by decide

/-- A sampling state whose next draw of Xoroshiro128+ is the sum of the two words given. -/
def sampling (w a b : Word) : State :=
  running { seeded with gens := { smS := 0, xoS1 := a, xoS2 := b }, ub := 9, uiDef := some .xo } w 0 9

-- Accepted and rejected draws (V-UI-3), for both commands.
theorem witness_IntegerSampleTakesOneDrawATurn :
    (Samples (.uiSample .dflt) (sampling 0x43 5 0) .dflt 0 9 ∧ (0 : Half).toInt ≤ (9 : Half).toInt ∧
      gselTarget .dflt (sampling 0x43 5 0).uiDef = some .xo ∧ (sampling 0x43 5 0).seeded .xo = true ∧
      uiAccept 0 9 (draw64 .xo ((sampling 0x43 0xFFFFFFFFFFFFFFF9 0).workGens .xo)).2 = some 9) ∧
    (Samples (.uiSamplerange .dflt) (sampling 0x44 0xFFFFFFFFFFFFFFFA 0) .dflt 0 9 ∧
      uiAccept 0 9 (draw64 .xo ((sampling 0x44 0xFFFFFFFFFFFFFFFA 0).workGens .xo)).2 = none ∧
      (sampling 0x44 0xFFFFFFFFFFFFFFFA 0).inflight = some (command 0x44 0 9)) := by
  unfold Samples
  decide

-- One rejected draw, then an accepted one.
theorem witness_IntegerSampleTakesTheFirstAcceptedDraw :
    let s := sampling 0x43 0xFFFFFFFFFFFFFFFA 0
    s.inputs = [] ∧ s.inflight = some (command 0x43 0 9) ∧ (command 0x43 0 9).pending = none ∧
    decode (command 0x43 0 9).word = .ok (.uiSample .dflt) ∧ Samples (.uiSample .dflt) s .dflt 0 9 ∧ (0 : Half).toInt ≤ (9 : Half).toInt ∧
    gselTarget .dflt s.uiDef = some .xo ∧ s.seeded .xo = true ∧ (∀ j, j < 1 → uiAccept 0 9 (drawOutput .xo s.gens j) = none) ∧
    ∃ v, uiAccept 0 9 (drawOutput .xo s.gens 1) = some v := by
  unfold Samples
  refine ⟨rfl, rfl, rfl, by decide, by decide, by decide, rfl, rfl, by decide, ?_⟩
  exact Option.isSome_iff_exists.1 (by decide)

theorem witness_SplitMixSamplingTerminates :
    let s := running { seeded with ub := 9, uiDef := some .sm } 0x43 0 0
    s.inputs = [] ∧ s.inflight = some (command 0x43 0 0) ∧ (command 0x43 0 0).pending = none ∧
    decode (command 0x43 0 0).word = .ok (.uiSample .dflt) ∧ Samples (.uiSample .dflt) s .dflt 0 9 ∧ (0 : Half).toInt ≤ (9 : Half).toInt ∧
    gselTarget .dflt s.uiDef = some .sm ∧ s.smV = true := by
  unfold Samples
  decide

-- The default and the named generator.
theorem witness_DoubleSampleTakesOneDraw :
    (gselTarget .dflt ({ seeded with udDef := some .xo } : State).udDef = some .xo ∧ ({ seeded with udDef := some .xo } : State).seeded .xo = true) ∧
    (gselTarget .sm seeded.udDef = some .sm ∧ seeded.seeded .sm = true) := by decide

-- Every clause: no default; valid bounds; an unseeded default; an unseeded named generator; a FILL of 256 bytes.
theorem witness_GeneratorResolutionErrors :
    idle.uiDef = none ∧ idle.udDef = none ∧ (trunc32 (running idle 0x44 5 5).a0).toInt ≤ (trunc32 (running idle 0x44 5 5).a1).toInt ∧
    idle.seeded .sm = false ∧ gselTarget .dflt ({ idle with uiDef := some .sm } : State).uiDef = some .sm ∧
    gselTarget .sm idle.udDef = some .sm ∧ gselTarget .sm none = some .sm ∧ (256 : BitVec 16).toNat ≤ 256 := by decide

theorem witness_OperandChecksComeFirst :
    256 < (257 : BitVec 16).toNat ∧ (trunc32 (running idle 0x44 0 0xFFFFFFFF).a1).toInt < (trunc32 (running idle 0x44 0 0xFFFFFFFF).a0).toInt := by
  decide

theorem witness_SplitMixStepIsTheRulesArithmetic :
    ∃ z z1 z2 : Word, z1.toNat = 0xBF58476D1CE4E5B9 * (z ^^^ (z >>> 30)).toNat % 2 ^ 64 ∧
      z2.toNat = 0x94D049BB133111EB * (z1 ^^^ (z1 >>> 27)).toNat % 2 ^ 64 := ⟨0, 0, 0, by decide, by decide⟩

theorem witness_SplitMixMixIsABijection : 1 ≤ 63 ∧ 2 ^ 64 - 1 < 2 ^ 64 := by decide

theorem witness_SplitMixPeriodIsTwoToThe64 :
    (0 : Nat) < 2 ^ 64 ∧ (drawState .sm idle.gens (1 + 0)).smS = (drawState .sm idle.gens (1 + 0)).smS := by decide

theorem witness_XoroshiroStepIsTheRulesArithmetic : ∃ a b b1 : Word, b1 = b ^^^ a := ⟨1, 2, 3, by decide⟩

theorem witness_XoroshiroNeverReachesTheZeroState : XoNonzero { smS := 0, xoS1 := 0, xoS2 := 1 } := by
  unfold XoNonzero
  decide

theorem witness_SeedingNeverProducesTheZeroState :
    (running idle 0x21 0 0).inflight = some (command 0x21 0 0) ∧
    next (exec .xoSeed (running idle 0x21 0 0)) (fun t => t.inflight.isNone && t.err == .ok) ∧
    next (exec .xoSeedEnt (requested 0x22)) (fun t => t.inflight.isNone && t.err == .ok) := by decide

-- The two extreme bounds, and a single value.
theorem witness_RangeIsTheExactDifference :
    (0x80000000 : Half).toInt ≤ (0x7FFFFFFF : Half).toInt ∧ (7 : Half).toInt ≤ (7 : Half).toInt := by decide

theorem witness_SpanBucketCountAndLimit : (0 : Half) ≠ fullRange ∧ (0xFFFFFFFE : Half) ≠ fullRange := by decide

-- The full range, and the first and the last bucket of the largest other one.
theorem witness_EveryResultHasItsBucketOfDraws :
    ((0x80000000 : Half).toInt ≤ (0x7FFFFFFF : Half).toInt ∧ uiRange 0x80000000 0x7FFFFFFF = fullRange) ∧
    ((0x80000000 : Half).toInt ≤ (0x7FFFFFFE : Half).toInt ∧ uiRange 0x80000000 0x7FFFFFFE ≠ fullRange ∧
      0 < (uiSpan (uiRange 0x80000000 0x7FFFFFFE)).toNat ∧ 0xFFFFFFFE < (uiSpan (uiRange 0x80000000 0x7FFFFFFE)).toNat) := by decide

theorem witness_RejectionCount :
    ((0 : Half).toInt ≤ (9 : Half).toInt ∧ uiRange 0 9 ≠ fullRange) ∧
    ((0x80000000 : Half).toInt ≤ (0x7FFFFFFE : Half).toInt ∧ uiRange 0x80000000 0x7FFFFFFE ≠ fullRange) ∧ (0 : Half) ≠ fullRange ∧ (0xFFFFFFFE : Half) ≠ fullRange := by decide

theorem witness_DoubleGranularity : 2 ^ 52 - 1 < 2 ^ 52 ∧ (0xFFF : Word).toNat < 2 ^ 12 := by decide

-- An offset for each clause, the first and the last of each range.
theorem witness_ReadsWhileIdleFollowTheRegisterMap :
    (∀ off ∈ [0x000, 0x008, 0x010, 0x018, 0x020, 0x028, 0x030, 0x038, 0x040, 0x0F8, 0x100, 0x1F8, 0x200, 0xFF8],
      ({ idle with inputs := [.read (base + off) 8] } : State).inputs = .read (base + off) 8 :: [] ∧ off < 4096 ∧ off % 8 = 0) ∧ idle.busy = false ∧ idle.engineBase = base ∧
    (0x040 ≤ 0x0F8 ∧ 0x0F8 < 0x100) ∧ (0x100 ≤ 0x1F8 ∧ 0x1F8 < 0x200 ∧ 7 < 8 ∧ (255 : Fin 256).val = 0x1F8 - 0x100 + 7) ∧ 0x200 ≤ 0xFF8 := by
  decide

theorem witness_WritesWhileIdle :
    (∀ off ∈ [0x000, 0x008, 0x010, 0x018, 0x020, 0x100, 0xFF8],
      ({ idle with inputs := [.write (base + off) 8 1] } : State).inputs = .write (base + off) 8 1 :: [] ∧ off < 4096 ∧ off % 8 = 0) ∧ idle.busy = false ∧ idle.engineBase = base ∧
    ((0xFF8 : Nat) ≠ 0x000 ∧ (0xFF8 : Nat) ≠ 0x010 ∧ (0xFF8 : Nat) ≠ 0x018) := by decide

theorem witness_WritesWhileBusyAreDropped :
    (∀ off ∈ [0x000, 0x008, 0x010, 0x018, 0x020, 0x100, 0xFF8],
      ({ running idle 0x43 0 0 with inputs := [.write (base + off) 8 1] } : State).inputs = .write (base + off) 8 1 :: [] ∧ off < 4096 ∧ off % 8 = 0) ∧
    (running idle 0x43 0 0).busy = true ∧ (running idle 0x43 0 0).engineBase = base ∧ ((0x008 : Nat) ≠ 0x000 ∧ (0x008 : Nat) ≠ 0x010 ∧ (0x008 : Nat) ≠ 0x018) := by decide

theorem witness_ReadsWhileBusy :
    (∀ off ∈ [0x000, 0x008, 0x010, 0x018, 0x020, 0x040, 0x0F8, 0x100, 0x200, 0xFF8],
      ({ running idle 0x43 0 0 with inputs := [.read (base + off) 8] } : State).inputs = .read (base + off) 8 :: [] ∧ off < 4096 ∧ off % 8 = 0) ∧
    (running idle 0x43 0 0).busy = true ∧ (running idle 0x43 0 0).engineBase = base := by decide

theorem witness_ResetSetsTheResetValues :
    ({ running seeded 0x43 0 0 with inputs := [.reset, .engine] } : State).inputs = .reset :: [.engine] := by decide

end Sys2Proof.Tests
end

section
/-! SUPPORT. The generator datapaths lose nothing: SM_MIX and the step of Xoroshiro128+ are injective (41_splitmix64.md R180, R184; 42_xoroshiro128plus.md R200, R203), so
no draw, discard or seeding leads into the zero state (R35, R208). -/

namespace Sys2Proof.Machine

open Sys2Proof.Safety

/-! ## Injective pieces -/

/-- Read from the top bit down, `x ^^^ (x >>> k)` gives back `x`. -/
theorem xorShiftRight_injective {w k : Nat} (hk : 0 < k) : Function.Injective fun x : BitVec w => x ^^^ (x >>> k) := by
  intro x y hxy
  have hbit : ∀ n i, w - i ≤ n → x.getLsbD i = y.getLsbD i := by
    intro n
    induction n with
    | zero =>
      intro i hi
      rw [BitVec.getLsbD_of_ge x i (by omega), BitVec.getLsbD_of_ge y i (by omega)]
    | succ n ih =>
      intro i hi
      have hsum := congrArg (fun z : BitVec w => z.getLsbD i) hxy
      simpa [ih (k + i) (by omega)] using hsum
  exact BitVec.eq_of_getLsbD_eq fun i _ => hbit _ i le_rfl

/-- Rotating moves bit `j` to bit `j + k` modulo 64 (R10). -/
theorem rotateLeft_getLsbD (x : Word) {j k : Nat} (hj : j < 64) (hk : k < 64) : (rotateLeft x k).getLsbD ((j + k) % 64) = x.getLsbD j := by
  unfold rotateLeft
  by_cases hjk : j + k < 64
  · have hmod : (j + k) % 64 = j + k := Nat.mod_eq_of_lt hjk
    have hhigh : x.getLsbD (64 - k + (j + k)) = false := BitVec.getLsbD_of_ge x _ (by omega)
    simp [hmod, hhigh, hjk, BitVec.getLsbD_eq_getElem hj]
  · have hmod : (j + k) % 64 = j + k - 64 := by omega
    have hlow : j + k - 64 < k := by omega
    have hback : 64 - k + (j + k - 64) = j := by omega
    simp [hmod, hlow, hback]

theorem rotateLeft_injective {k : Nat} (hk : k < 64) : Function.Injective fun x : Word => rotateLeft x k := by
  intro x y hxy
  apply BitVec.eq_of_getLsbD_eq
  intro j hj
  have hrot := congrArg (fun z : Word => z.getLsbD ((j + k) % 64)) hxy
  simpa [rotateLeft_getLsbD, hj, hk] using hrot

/-- The multipliers of SM_MIX are odd, so each has an inverse modulo 2^64 (R14). -/
theorem isUnit_mix1 : IsUnit mix1 := IsUnit.of_mul_eq_one 0x96DE1B173F119089 (by decide)
theorem isUnit_mix2 : IsUnit mix2 := IsUnit.of_mul_eq_one 0x319642B2D24D8EC3 (by decide)

/-! ## SplitMix64 -/

/-- SM_MIX is injective (R184(a)): each of its five operations is. -/
theorem smMix_injective : Function.Injective smMix := by
  intro x y hxy
  have hz2 := xorShiftRight_injective (by decide) hxy
  have hz1 := xorShiftRight_injective (by decide) (isUnit_mix2.mul_left_cancel hz2)
  exact xorShiftRight_injective (by decide) (isUnit_mix1.mul_left_cancel hz1)

theorem smMix_eq_zero {z : Word} : smMix z = 0 ↔ z = 0 := smMix_injective.eq_iff' (by decide)

/-- Two consecutive outputs of SplitMix64 are not both zero (R184(c)). -/
theorem smStep_outputs_not_both_zero (seed : Word) : ¬((smStep seed).2 = 0 ∧ (smStep (smStep seed).1).2 = 0) := by
  rintro ⟨hfirst, hsecond⟩
  have hfirst : gamma + seed = 0 := smMix_eq_zero.1 hfirst
  have hsecond : gamma + (gamma + seed) = 0 := smMix_eq_zero.1 hsecond
  rw [hfirst] at hsecond
  exact absurd hsecond (by decide)

/-! ## Xoroshiro128+ -/

/-- A draw of Xoroshiro128+ takes different pairs of state words to different pairs (R203). -/
theorem draw64_xo_words_injective {r r' : GenRegs} (h1 : (draw64 .xo r).1.xoS1 = (draw64 .xo r').1.xoS1)
    (h2 : (draw64 .xo r).1.xoS2 = (draw64 .xo r').1.xoS2) : r.xoS1 = r'.xoS1 ∧ r.xoS2 = r'.xoS2 := by
  have hmixed : r.xoS2 ^^^ r.xoS1 = r'.xoS2 ^^^ r'.xoS1 := rotateLeft_injective (k := 36) (by decide) h2
  have hrotated : rotateLeft r.xoS1 55 = rotateLeft r'.xoS1 55 := by
    simp only [draw64, xoStep] at h1
    rw [hmixed] at h1
    simpa using h1
  have hfirst : r.xoS1 = r'.xoS1 := rotateLeft_injective (by decide) hrotated
  rw [hfirst] at hmixed
  exact ⟨hfirst, by simpa using hmixed⟩

/-- No draw, of either generator, leads into the zero state of Xoroshiro128+ (R35, R203). -/
theorem draw64_nonzero (g : Gen) {r : GenRegs} (h : XoNonzero r) : XoNonzero (draw64 g r).1 := by
  cases g with
  | sm => exact h
  | xo =>
    rintro ⟨h1, h2⟩
    have hfixed : xoStep 0 0 = (0, 0, 0) := by decide
    exact h (draw64_xo_words_injective (r' := ⟨0, 0, 0⟩) (h1.trans (congrArg (·.1) hfixed).symm) (h2.trans (congrArg (·.2.1) hfixed).symm))

theorem drawState_nonzero (g : Gen) (n : Nat) {r : GenRegs} (h : XoNonzero r) : XoNonzero (drawState g r n) := by
  induction n with
  | zero => exact h
  | succ n ih => exact draw64_nonzero g ih

theorem xoDiscard_nonzero {r : GenRegs} (h : XoNonzero r) : XoNonzero (xoDiscard r) := draw64_nonzero .xo h

/-- XO_SEED never seeds the zero state (R208). -/
theorem xoSeedRegs_nonzero (seed : Word) (r : GenRegs) : XoNonzero (xoSeedRegs seed r) :=
  xoDiscard_nonzero (smStep_outputs_not_both_zero seed)

/-- A command draws from a nonzero state when its registers and its pending update are nonzero (R54). -/
theorem workGens_nonzero {s : State} (g : Gen) (hgens : XoNonzero s.gens)
    (hpending : ∀ f r, s.inflight = some f → f.pending = some r → XoNonzero r) : XoNonzero (s.workGens g) := by
  cases g with
  | sm => simpa [XoNonzero] using hgens
  | xo =>
    unfold State.workGens
    cases hf : s.inflight with
    | none => exact hgens
    | some f =>
      cases hp : f.pending with
      | none => simpa [XoNonzero, GenRegs.withWords, hp] using hgens
      | some r => simpa [XoNonzero, GenRegs.withWords, hp] using hpending f r hf hp

end Sys2Proof.Machine
end

section
/-! SUPPORT. All that one step can do (40_execution.md R150, R151; 20_memory.md R70 to R77, R95; 70_reset_and_hazards.md R340), and which commands own which part of the state. -/

namespace Sys2Proof.Machine

open Sys2Proof.Safety

/-! ## One step -/

/-- Every way a step can take a next state, each on the state whose event has left the queue: a turn of the engine, a host access that is served,
a change of the entropy signals, or a reset. -/
inductive StepCase (s : State) : State → Prop
  | engine {t : State} (hm : EngineMoves s) (h : engineTurn { s with inputs := s.inputs.tail } = .next t) : StepCase s t
  | read (off : Nat) (hh : ∃ addr width, s.inputs.head? = some (.read addr width)) :
      StepCase s (hostRead off { s with inputs := s.inputs.tail })
  | write (off : Nat) (v : Word) (hh : ∃ addr width, s.inputs.head? = some (.write addr width v)) :
      StepCase s (hostWrite off v { s with inputs := s.inputs.tail })
  | entAvail (b : Bool) (hh : s.inputs.head? = some (.entAvail b)) : StepCase s { s with inputs := s.inputs.tail, entAvail := b }
  | entWord (w : Word) (hh : s.inputs.head? = some (.entWord w)) :
      StepCase s { s with inputs := s.inputs.tail, entValid := true, entData := w }
  | reset (hh : s.inputs.head? = some .reset) : StepCase s ({ s with inputs := s.inputs.tail } : State).assertReset

/-- An event that is not the engine's turn is served in the state it has left the queue of. -/
theorem step_of_input {s : State} {a : Input} {rest : List Input} (hin : s.inputs = a :: rest) (ha : a ≠ .engine) :
    step s = serveInput a { s with inputs := rest } := by
  cases a with
  | engine => exact absurd rfl ha
  | _ => simp only [step, hin]

/-- A step that takes a next state takes one of the cases. -/
theorem step_cases {s t : State} (h : step s = .next t) : StepCase s t := by
  by_cases hm : EngineMoves s
  · exact .engine hm (step_of_engineMoves hm ▸ h)
  obtain ⟨a, rest, hin⟩ := List.exists_cons_of_ne_nil fun hnil => hm (.inl hnil)
  have ha : a ≠ .engine := by
    rintro rfl
    exact hm (.inr ⟨rest, hin⟩)
  have hhead : s.inputs.head? = some a := by rw [hin, List.head?_cons]
  have htail : rest = s.inputs.tail := by rw [hin, List.tail_cons]
  rw [step_of_input hin ha, htail] at h
  cases a with
  | engine => exact absurd rfl ha
  | read addr width =>
    obtain ⟨off, -, -, -, -, rfl⟩ := hostAccess_next h
    exact .read off ⟨addr, width, hhead⟩
  | write addr width v =>
    obtain ⟨off, -, -, -, -, rfl⟩ := hostAccess_next h
    exact .write off v ⟨addr, width, hhead⟩
  | entAvail b =>
    injection h with h
    exact h ▸ .entAvail b hhead
  | entWord w =>
    injection h with h
    exact h ▸ .entWord w hhead
  | reset =>
    injection h with h
    exact h ▸ .reset hhead

/-- All that a host write can do (R74 to R77): nothing; while BUSY = 1, set OVR; while BUSY = 0, accept a command or write an operand register. -/
theorem hostWrite_cases (off : Nat) (v : Word) (s : State) :
    hostWrite off v s = s ∨ (s.busy = true ∧ hostWrite off v s = { s with ovr := true }) ∨
    (s.busy = false ∧ (hostWrite off v s = s.accept v ∨ hostWrite off v s = { s with arg0 := v } ∨ hostWrite off v s = { s with arg1 := v })) := by
  unfold hostWrite
  rcases regAt off with _ | r
  · exact .inl rfl
  cases r with
  | cmd | arg0 | arg1 => cases s.busy <;> simp
  | _ => exact .inl rfl

/-- A rejected draw neither requests a word nor withdraws a request. -/
@[simp] theorem State.reject_entReq (r : GenRegs) (s : State) : (s.reject r).entReq = s.entReq := by
  unfold State.entReq
  rw [State.reject_inflight]
  cases s.inflight <;> rfl

/-! ## What a command owns -/

section
variable {s t : State} {i : Instr}

/-- No command writes the operand registers, the port's signals but ENT_VALID, or what is the model's own. -/
theorem ExecCase.keeps_port (h : ExecCase s i t) :
    t.arg0 = s.arg0 ∧ t.arg1 = s.arg1 ∧ t.inputs = s.inputs ∧ t.readData = s.readData ∧ t.freeCtr = s.freeCtr ∧
      t.entAvail = s.entAvail ∧ t.entData = s.entData ∧ t.engineBase = s.engineBase := by
  cases h <;> exact ⟨rfl, rfl, rfl, rfl, rfl, rfl, rfl, rfl⟩

theorem ExecCase.entropyCommand_of_entropy_ne (h : ExecCase s i t)
    (hne : t.entValid ≠ s.entValid ∨ t.entInit ≠ s.entInit ∨ t.efatal ≠ s.efatal) : i = .smSeedEnt ∨ i = .xoSeedEnt := by
  cases h with
  | unavailable _ hi | request _ hi => exact hi
  | smSeedEnt => exact .inl rfl
  | xoSeedEnt => exact .inr rfl
  | _ => simp at hne

theorem ExecCase.uiSetlb_of_lb_ne (h : ExecCase s i t) (hne : t.lb ≠ s.lb) : i = .uiSetlb := by
  cases h with
  | uiSetlb => rfl
  | _ => exact absurd rfl hne

theorem ExecCase.uiSetub_of_ub_ne (h : ExecCase s i t) (hne : t.ub ≠ s.ub) : i = .uiSetub := by
  cases h with
  | uiSetub => rfl
  | _ => exact absurd rfl hne

theorem ExecCase.uiSetdef_of_uiDef_ne (h : ExecCase s i t) (hne : t.uiDef ≠ s.uiDef) : ∃ g, i = .uiSetdef g := by
  cases h with
  | uiSetdef gsel => exact ⟨gsel, rfl⟩
  | _ => exact absurd rfl hne

theorem ExecCase.udSetdef_of_udDef_ne (h : ExecCase s i t) (hne : t.udDef ≠ s.udDef) : ∃ g, i = .udSetdef g := by
  cases h with
  | udSetdef gsel => exact ⟨gsel, rfl⟩
  | _ => exact absurd rfl hne

theorem ExecCase.fill_of_fbuf_ne (h : ExecCase s i t) (hne : t.fbuf ≠ s.fbuf) : ∃ g n, i = .fill g n := by
  cases h with
  | fill gsel n => exact ⟨gsel, n, rfl⟩
  | _ => exact absurd rfl hne

theorem ExecCase.clrstat_of_ovr_ne (h : ExecCase s i t) (hne : t.ovr ≠ s.ovr) : i = .clrstat := by
  cases h with
  | clrstat => rfl
  | _ => exact absurd rfl hne

theorem ExecCase.keeps_entropyFlags (h : ExecCase s i t) :
    (s.efatal = true → t.efatal = true) ∧ (s.entInit = true → t.entInit = true) := by
  cases h with
  | unavailable => exact ⟨fun _ => rfl, fun _ => rfl⟩
  | request => exact ⟨id, fun _ => rfl⟩
  | _ => exact ⟨id, id⟩

/-! ## What a command does to the generators -/

/-- A flag that stays or is set under `p` is never cleared, and becomes set only under `p`. -/
theorem flag_only_set {b b' : Bool} {p : Prop} (h : b' = b ∨ (b' = true ∧ p)) :
    (b = true → b' = true) ∧ (b = false → b' = true → p) := by
  rcases h with rfl | ⟨hset, hp⟩
  · exact ⟨id, fun hfalse htrue => by simp [hfalse] at htrue⟩
  · exact ⟨fun _ => hset, fun _ _ => hp⟩

/-- What a command from `s` to `t` can do to the generators' words and seeded flags: keep them; seed one generator and set its flag, which completes the
command normally; or draw from one generator, whose words may be those of a pending update (R36, R157, R220). -/
inductive GensCase (s : State) (i : Instr) (t : State) : Prop
  | kept (hgens : t.gens = s.gens) (hsm : t.smV = s.smV) (hxo : t.xoV = s.xoV)
  | seedSm (w : Word) (hi : seedsSm i) (hdone : t.inflight = none ∧ t.err = .ok)
      (hgens : t.gens = { s.gens with smS := w }) (hsm : t.smV = true) (hxo : t.xoV = s.xoV)
  | seedXo (hi : seedsXo i) (hdone : t.inflight = none ∧ t.err = .ok)
      (hgens : t.gens.smS = s.gens.smS) (hnonzero : XoNonzero t.gens) (hsm : t.smV = s.smV) (hxo : t.xoV = true)
  | draws (g : Gen) (r : GenRegs) (n : Nat) (hi : drawsFrom g i s) (hr : r = s.gens ∨ r = s.workGens g)
      (hgens : t.gens = drawState g r n) (hsm : t.smV = s.smV) (hxo : t.xoV = s.xoV)

/-- A sampling command draws from the generator that its GSEL value and UI_DEF name. -/
theorem drawsFrom_of_samples {gsel : GSel} {lb ub : Half} {g : Gen} (hi : Samples i s gsel lb ub)
    (hg : gselTarget gsel s.uiDef = some g) : drawsFrom g i s :=
  ⟨gsel, .inr (.inl ⟨hi.imp And.left And.left, hg⟩)⟩

theorem ExecCase.gensCase (h : ExecCase s i t) : GensCase s i t := by
  cases h with
  | smSeed => exact .seedSm _ (.inl rfl) ⟨rfl, rfl⟩ rfl rfl rfl
  | smSeedEnt => exact .seedSm _ (.inr rfl) ⟨rfl, rfl⟩ rfl rfl rfl
  | xoSetstate hne => exact .seedXo (.inl rfl) ⟨rfl, rfl⟩ rfl (xoDiscard_nonzero hne) rfl rfl
  | xoSeed => exact .seedXo (.inr (.inl rfl)) ⟨rfl, rfl⟩ rfl (xoSeedRegs_nonzero _ _) rfl rfl
  | xoSeedEnt => exact .seedXo (.inr (.inr rfl)) ⟨rfl, rfl⟩ rfl (xoSeedRegs_nonzero _ _) rfl rfl
  | next64 gsel g hg => exact .draws g _ 1 ⟨gsel, .inl ⟨.inl rfl, hg⟩⟩ (.inl rfl) rfl rfl rfl
  | next32 gsel g hg => exact .draws g _ 1 ⟨gsel, .inl ⟨.inr (.inl rfl), hg⟩⟩ (.inl rfl) rfl rfl rfl
  | fill gsel n g _ hg => exact .draws g _ _ ⟨gsel, .inl ⟨.inr (.inr ⟨n, rfl⟩), hg⟩⟩ (.inl rfl) (drawMany_snd _ _ _) rfl rfl
  | sample _ gsel g _ _ _ hi hg => exact .draws g _ 1 (drawsFrom_of_samples hi hg) (.inr rfl) rfl rfl rfl
  | udSample gsel g hg => exact .draws g _ 1 ⟨gsel, .inr (.inr ⟨rfl, hg⟩)⟩ (.inl rfl) rfl rfl rfl
  | _ => exact .kept rfl rfl rfl

/-- Draws of one generator leave the other's words (R220). -/
theorem drawState_xo_smS (r : GenRegs) (n : Nat) : (drawState .xo r n).smS = r.smS := by
  induction n with
  | zero => rfl
  | succ n ih => exact ih

theorem drawState_sm_xoWords (r : GenRegs) (n : Nat) : (drawState .sm r n).xoS1 = r.xoS1 ∧ (drawState .sm r n).xoS2 = r.xoS2 := by
  induction n with
  | zero => exact ⟨rfl, rfl⟩
  | succ n ih => exact ih

theorem GensCase.owner_of_smS_ne (h : GensCase s i t) (hne : t.gens.smS ≠ s.gens.smS) : seedsSm i ∨ drawsFrom .sm i s := by
  cases h with
  | kept hgens => exact absurd (by rw [hgens]) hne
  | seedSm _ hi => exact .inl hi
  | seedXo _ _ hgens => exact absurd hgens hne
  | draws g r n hi hr hgens =>
    cases g with
    | sm => exact .inr hi
    | xo =>
      have hkept : r.smS = s.gens.smS := by rcases hr with rfl | rfl <;> simp
      exact absurd (by rw [hgens, drawState_xo_smS, hkept]) hne

theorem GensCase.owner_of_xoWords_ne (h : GensCase s i t) (hne : t.gens.xoS1 ≠ s.gens.xoS1 ∨ t.gens.xoS2 ≠ s.gens.xoS2) :
    seedsXo i ∨ drawsFrom .xo i s := by
  cases h with
  | kept hgens | seedSm _ _ _ hgens => simp [hgens] at hne
  | seedXo hi => exact .inl hi
  | draws g r n hi hr hgens =>
    cases g with
    | xo => exact .inr hi
    | sm =>
      have hkept : r.xoS1 = s.gens.xoS1 ∧ r.xoS2 = s.gens.xoS2 := by rcases hr with rfl | rfl <;> simp
      simp [hgens, drawState_sm_xoWords, hkept] at hne

/-- A command sets a seeded flag only by seeding that generator and completing normally, and clears none (R36). -/
theorem GensCase.smV_set_by_seeding (h : GensCase s i t) : t.smV = s.smV ∨ (t.smV = true ∧ seedsSm i ∧ t.inflight = none ∧ t.err = .ok) := by
  cases h with
  | seedSm _ hi hdone _ hsm => exact .inr ⟨hsm, hi, hdone⟩
  | kept _ hsm | seedXo _ _ _ _ hsm | draws _ _ _ _ _ _ hsm => exact .inl hsm

theorem GensCase.xoV_set_by_seeding (h : GensCase s i t) : t.xoV = s.xoV ∨ (t.xoV = true ∧ seedsXo i ∧ t.inflight = none ∧ t.err = .ok) := by
  cases h with
  | seedXo hi hdone _ _ _ hxo => exact .inr ⟨hxo, hi, hdone⟩
  | kept _ _ hxo | seedSm _ _ _ _ _ hxo | draws _ _ _ _ _ _ _ hxo => exact .inl hxo

/-- A seeding command that completes normally has set its flag (R36). A command in flight that waits or has rejected a draw has not completed. -/
theorem ExecCase.seeded_of_done (h : ExecCase s i t) (hbusy : s.inflight ≠ none) (hnone : t.inflight = none) (hok : t.err = .ok) :
    (seedsSm i → t.smV = true) ∧ (seedsXo i → t.xoV = true) := by
  cases h with
  | smSeed | smSeedEnt => exact ⟨fun _ => rfl, by simp [seedsXo]⟩
  | xoSetstate | xoSeed | xoSeedEnt => exact ⟨by simp [seedsSm], fun _ => rfl⟩
  | wait => exact absurd hnone hbusy
  | request | reject => exact absurd (by simpa using hnone) hbusy
  | sample _ _ _ _ _ _ hi => rcases hi with ⟨rfl, -⟩ | ⟨rfl, -⟩ <;> simp [seedsSm, seedsXo]
  | nop | clrstat | next64 | next32 | fill | uiSetlb | uiSetub | uiSetdef | udSetdef | udSample => simp [seedsSm, seedsXo]
  | _ => simp at hok

end

end Sys2Proof.Machine
end

section
/-! SUPPORT. The engine's invariant (10_state.md R35, R38, R46, R47; 20_memory.md R98): it holds after reset, and a command, a host access and an event each keep it. -/

namespace Sys2Proof.Safety

open Sys2Proof.Machine

/-- Nothing of the invariant rests on the queue, on what stands outside the engine, or on the operand registers and OVR. -/
theorem EngineInv.of_eq {s t : State} (h : EngineInv s) (hgens : t.gens = s.gens := by rfl) (hxoV : t.xoV = s.xoV := by rfl)
    (hlb : t.lb = s.lb := by rfl) (hub : t.ub = s.ub := by rfl)
    (hefatal : t.efatal = s.efatal := by rfl) (hentInit : t.entInit = s.entInit := by rfl) (hinflight : t.inflight = s.inflight := by rfl) : EngineInv t where
  bounds := by rw [hlb, hub]; exact h.bounds
  xo := by rw [hgens, hxoV]; exact h.xo
  xoPending := by rw [hinflight, hxoV]; exact h.xoPending
  entropy := by rw [hefatal, hentInit]; exact h.entropy
  request := by rw [State.entReq, hinflight, hentInit, hefatal]; exact h.request

/-- With no command in flight, only the registers count. -/
theorem EngineInv.of_idle {t : State} (hnone : t.inflight = none) (hbounds : t.lb.toInt ≤ t.ub.toInt) (hxo : t.xoV = true → XoNonzero t.gens)
    (hentropy : t.efatal = true → t.entInit = true) : EngineInv t where
  bounds := hbounds
  xo := hxo
  xoPending := by simp [hnone]
  entropy := hentropy
  request := by simp [State.entReq, hnone]

theorem engineInv_resetAt (c : Nat) : EngineInv (State.resetAt c) :=
  .of_idle rfl (by change (0 : Half).toInt ≤ (0x7FFFFFFF : Half).toInt; decide) nofun nofun

theorem EngineInv.raise {s : State} (h : EngineInv s) (e : ErrCode) : EngineInv (s.raise e) :=
  .of_idle rfl h.bounds h.xo h.entropy

/-! ## A command -/

section
variable {s t : State} {i : Instr}

theorem EngineInv.exec_bounds (hinv : EngineInv s) (h : ExecCase s i t) : t.lb.toInt ≤ t.ub.toInt := by
  cases h with
  | uiSetlb hle | uiSetub hle => exact hle
  | _ => exact hinv.bounds

/-- The words a command draws from are those of a nonzero state. -/
theorem EngineInv.workGens (hinv : EngineInv s) (g : Gen) (hxoV : s.xoV = true) : XoNonzero (s.workGens g) :=
  workGens_nonzero g (hinv.xo hxoV) fun f r hf hr => hinv.xoPending f r hf hr hxoV

theorem EngineInv.exec_xo (hinv : EngineInv s) (h : ExecCase s i t) (hxoV : t.xoV = true) : XoNonzero t.gens := by
  cases h.gensCase with
  | kept hgens _ hxo => exact hgens ▸ hinv.xo (hxo ▸ hxoV)
  | seedSm w _ _ hgens _ hxo =>
    rw [hgens]
    exact hinv.xo (hxo ▸ hxoV)
  | seedXo _ _ _ hnonzero => exact hnonzero
  | draws g r n _ hr hgens _ hxo =>
    have hbefore : s.xoV = true := hxo ▸ hxoV
    rw [hgens]
    apply drawState_nonzero
    rcases hr with rfl | rfl
    · exact hinv.xo hbefore
    · exact hinv.workGens g hbefore

theorem EngineInv.exec_xoPending (hinv : EngineInv s) (h : ExecCase s i t) (f : InFlight) (r : GenRegs) (hf : t.inflight = some f)
    (hr : f.pending = some r) (hxoV : t.xoV = true) : XoNonzero r := by
  cases h with
  | reject _ _ g =>
    obtain ⟨f₀, hf₀, rfl⟩ := Option.map_eq_some_iff.1 hf
    injection hr with hr
    exact hr ▸ draw64_nonzero g (hinv.workGens g hxoV)
  | request =>
    obtain ⟨f₀, hf₀, rfl⟩ := Option.map_eq_some_iff.1 hf
    exact hinv.xoPending f₀ r hf₀ hr hxoV
  | wait => exact hinv.xoPending f r hf hr hxoV
  | _ => cases hf

theorem EngineInv.exec_entropy (hinv : EngineInv s) (h : ExecCase s i t) : t.efatal = true → t.entInit = true := by
  cases h with
  | unavailable | request => exact fun _ => rfl
  | _ => exact hinv.entropy

theorem EngineInv.exec_request (hinv : EngineInv s) (h : ExecCase s i t) (hreq : t.entReq = true) : t.entInit = true ∧ t.efatal = false := by
  cases h with
  | request _ _ _ husable => exact ⟨rfl, husable.1⟩
  | wait => exact hinv.request hreq
  | reject _ _ g => exact hinv.request (State.reject_entReq _ s ▸ hreq)
  | _ => cases hreq

theorem EngineInv.exec (hinv : EngineInv s) (h : ExecCase s i t) : EngineInv t where
  bounds := hinv.exec_bounds h
  xo := hinv.exec_xo h
  xoPending := hinv.exec_xoPending h
  entropy := hinv.exec_entropy h
  request := hinv.exec_request h

/-! ## A step -/

theorem EngineInv.engineTurn (hinv : EngineInv s) (h : engineTurn s = .next t) : EngineInv t := by
  rcases engineTurn_cases h with ⟨-, rfl⟩ | ⟨-, -, -, -, rfl⟩ | ⟨-, i, -, -, hexec⟩
  · exact hinv
  · exact hinv.raise .illegal
  · exact hinv.exec hexec

/-- A command accepted has no pending update and no request yet (R150). -/
theorem EngineInv.accept (hinv : EngineInv s) (v : Word) : EngineInv (s.accept v) where
  bounds := hinv.bounds
  xo := hinv.xo
  xoPending := by
    rintro f r hf hr
    injection hf with hf
    subst hf
    cases hr
  entropy := hinv.entropy
  request := by simp [State.entReq]

theorem EngineInv.hostWrite (hinv : EngineInv s) (off : Nat) (v : Word) : EngineInv (hostWrite off v s) := by
  rcases hostWrite_cases off v s with h | ⟨-, h⟩ | ⟨-, h | h | h⟩ <;> rw [h]
  · exact hinv
  · exact hinv.of_eq
  · exact hinv.accept v
  · exact hinv.of_eq
  · exact hinv.of_eq

theorem EngineInv.assertReset (s : State) : EngineInv s.assertReset :=
  (engineInv_resetAt s.freeCtr).of_eq

theorem EngineInv.step (hinv : EngineInv s) (h : step s = .next t) : EngineInv t := by
  have hserved : EngineInv { s with inputs := s.inputs.tail } := hinv.of_eq
  cases step_cases h with
  | engine _ hturn => exact hserved.engineTurn hturn
  | read => exact hserved.of_eq
  | write off v => exact hserved.hostWrite off v
  | entAvail | entWord => exact hserved.of_eq
  | reset => exact .assertReset _

end

end Sys2Proof.Safety
end

section
/-! SUPPORT. The host's view of the state: what an access does not see of the generators (10_state.md R34), and the fields of STATUS and CFG (R43, R49, R50). -/

namespace Sys2Proof.Machine

/-! ## Accesses and the generators -/

/-- A read does not see the generators' words. -/
theorem hostRead_with_gens (off : Nat) (s : State) (r : GenRegs) : hostRead off { s with gens := r } = { hostRead off s with gens := r } := rfl

/-- A write does not see the generators' words. -/
theorem hostWrite_with_gens (off : Nat) (v : Word) (s : State) (r : GenRegs) :
    hostWrite off v { s with gens := r } = { hostWrite off v s with gens := r } := by
  have hbusy : State.busy { s with gens := r } = s.busy := rfl
  unfold hostWrite
  rw [hbusy]
  rcases regAt off with _ | reg
  · rfl
  · cases reg with
    | cmd | arg0 | arg1 => cases s.busy <;> rfl
    | _ => rfl

/-- While a command is in flight, an access sees of it no more than that it is there. -/
theorem hostRead_with_pending (off : Nat) {s : State} {f : InFlight} (hf : s.inflight = some f) (p : Option GenRegs) :
    hostRead off { s with inflight := some { f with pending := p } } =
      { hostRead off s with inflight := (hostRead off s).inflight.map fun g => { g with pending := p } } := by
  cases s
  subst hf
  rfl

theorem hostWrite_with_pending (off : Nat) (v : Word) {s : State} {f : InFlight} (hf : s.inflight = some f) (p : Option GenRegs) :
    hostWrite off v { s with inflight := some { f with pending := p } } =
      { hostWrite off v s with inflight := (hostWrite off v s).inflight.map fun g => { g with pending := p } } := by
  cases s
  subst hf
  unfold hostWrite
  rcases regAt off with _ | reg
  · rfl
  · cases reg <;> rfl

theorem hostWrite_gens (off : Nat) (v : Word) (s : State) : (hostWrite off v s).gens = s.gens := by
  rw [hostWrite_keeps]

/-! ## STATUS and CFG -/

/-- Prepending a field to `n` bits makes a number of that many bits more. -/
theorem toNat_append_lt {m n k : Nat} (x : BitVec m) (y : BitVec n) (hx : x.toNat < 2 ^ k) : (x ++ y).toNat < 2 ^ (k + n) := by
  rw [BitVec.toNat_append, ← Nat.shiftLeft_add_eq_or_of_lt y.isLt, Nat.shiftLeft_eq]
  calc x.toNat * 2 ^ n + y.toNat < (x.toNat + 1) * 2 ^ n := by rw [Nat.succ_mul]; exact Nat.add_lt_add_left y.isLt _
    _ ≤ 2 ^ k * 2 ^ n := Nat.mul_le_mul_right _ hx
    _ = 2 ^ (k + n) := (Nat.pow_add ..).symm

/-- STATUS bits 63 to 10 read 0 (R49): the fields below them are 7 bits and the 4 of ERR. -/
theorem statusWord_lt (s : State) : s.statusWord.toNat < 2 ^ 10 := by
  have hreserved : (0#54).toNat < 2 ^ 0 := by decide
  have hseeded := toNat_append_lt _ (.ofBool s.smV) (toNat_append_lt _ (.ofBool s.xoV) hreserved)
  have herr := toNat_append_lt _ s.err.code hseeded
  exact toNat_append_lt _ _ (toNat_append_lt _ _ (toNat_append_lt _ _ (toNat_append_lt _ _ herr)))

/-- CFG bits 63 to 4 read 0 (R50). -/
theorem cfgWord_lt (s : State) : s.cfgWord.toNat < 2 ^ 4 :=
  toNat_append_lt (k := 2) _ _ (toNat_append_lt (k := 0) _ _ (by decide))

theorem ErrCode.code_lt (e : ErrCode) : e.code.toNat < 8 := by cases e <;> decide

/-- Each flag of STATUS stands at its bit (R43). -/
theorem statusWord_flags (s : State) :
    s.statusWord.getLsbD 0 = s.busy ∧ s.statusWord.getLsbD 1 = s.ovr ∧ s.statusWord.getLsbD 2 = s.efatal ∧
      s.statusWord.getLsbD 3 = s.entInit ∧ s.statusWord.getLsbD 8 = s.smV ∧ s.statusWord.getLsbD 9 = s.xoV := by
  simp only [State.statusWord, BitVec.getLsbD_append]
  simp

theorem statusWord_err (s : State) : s.statusWord.extractLsb' 4 4 = s.err.code := by
  apply BitVec.eq_of_getLsbD_eq
  intro i hi
  simp only [State.statusWord, BitVec.getLsbD_extractLsb', BitVec.getLsbD_append]
  simp [hi]

/-- Each default stands in its two bits of CFG (R50). -/
theorem cfgWord_defaults (s : State) : s.cfgWord.extractLsb' 0 2 = defCode s.uiDef ∧ s.cfgWord.extractLsb' 2 2 = defCode s.udDef :=
  ⟨BitVec.extractLsb'_append_eq_right, (BitVec.extractLsb'_append_eq_of_le (by decide)).trans BitVec.extractLsb'_append_eq_right⟩

end Sys2Proof.Machine
end

section
/-! SUPPORT. The statements about the engine's state (10_state.md) that are settled. -/

namespace Sys2Proof.Proofs

open Sys2Proof.Machine Sys2Proof.Safety

/-- Settles O12: a command, a host access, an event and a reset each keep the invariant. -/
theorem stepKeepsInv : Obligations.StepKeepsInv :=
  fun _ _ hinv h => hinv.step h

/-- Settles O13: of the commands only those that set the flags touch them, and of the other steps only a reset. -/
theorem onlyResetClearsEntropyFlags : Obligations.OnlyResetClearsEntropyFlags := by
  intro s t h hhead
  cases step_cases h with
  | engine _ hturn =>
    rcases engineTurn_cases hturn with ⟨-, rfl⟩ | ⟨-, -, -, -, rfl⟩ | ⟨-, i, -, -, hexec⟩
    · exact ⟨id, id⟩
    · exact ⟨id, id⟩
    · exact hexec.keeps_entropyFlags
  | write off v =>
    rw [hostWrite_keeps]
    exact ⟨id, id⟩
  | read | entAvail | entWord => exact ⟨id, id⟩
  | reset hh => exact absurd hh hhead

/-- Settles O14, by what a command can do to the generators' words and flags. -/
theorem seededFlagsAreSetOnlyBySeeding : Obligations.SeededFlagsAreSetOnlyBySeeding := by
  intro i s t f hf h
  have hexec := exec_cases h
  obtain ⟨hsmKept, hsmSet⟩ := flag_only_set hexec.gensCase.smV_set_by_seeding
  obtain ⟨hxoKept, hxoSet⟩ := flag_only_set hexec.gensCase.xoV_set_by_seeding
  exact ⟨hsmKept, hxoKept, hsmSet, hxoSet, hexec.seeded_of_done (hf ▸ Option.some_ne_none f)⟩

/-- Settles O15: an access that is served is served alike in the states compared, and neither serving it reads or writes the generators' words. -/
theorem hostAccessesDoNotSeeGeneratorState : Obligations.HostAccessesDoNotSeeGeneratorState := by
  rintro s t r a rest (⟨addr, width, rfl⟩ | ⟨addr, width, v, rfl⟩) h
  · have hserved : hostAccess addr width (fun off => hostRead off { s with inputs := rest }) { s with inputs := rest } = .next t := h
    obtain ⟨off, rfl, hoff, rfl, h8, rfl⟩ := hostAccess_next hserved
    refine ⟨rfl, step_read rfl hoff h8, fun f p hf => ?_⟩
    rw [step_read rfl hoff h8]
    exact congrArg _ (hostRead_with_pending off (s := { s with inputs := rest }) hf p)
  · have hserved : hostAccess addr width (fun off => hostWrite off v { s with inputs := rest }) { s with inputs := rest } = .next t := h
    obtain ⟨off, rfl, hoff, rfl, h8, rfl⟩ := hostAccess_next hserved
    refine ⟨hostWrite_gens .., ?_, fun f p hf => ?_⟩
    · rw [step_write rfl hoff h8]
      exact congrArg _ (hostWrite_with_gens off v { s with inputs := rest } r)
    · rw [step_write rfl hoff h8]
      exact congrArg _ (hostWrite_with_pending off v (s := { s with inputs := rest }) hf p)

/-- Settles O19, one lemma for each owner. -/
theorem commandsWriteOnlyWhatTheyOwn : Obligations.CommandsWriteOnlyWhatTheyOwn := by
  intro i s t h
  have hexec := exec_cases h
  obtain ⟨harg0, harg1, hinputs, hreadData, hfreeCtr, hentAvail, hentData, hbase⟩ := hexec.keeps_port
  exact ⟨harg0, harg1, hinputs, hreadData, hfreeCtr, hentAvail, hentData, hbase,
    hexec.entropyCommand_of_entropy_ne, hexec.uiSetlb_of_lb_ne, hexec.uiSetub_of_ub_ne, hexec.uiSetdef_of_uiDef_ne,
    hexec.udSetdef_of_udDef_ne, hexec.fill_of_fbuf_ne, hexec.clrstat_of_ovr_ne,
    hexec.gensCase.owner_of_smS_ne, hexec.gensCase.owner_of_xoWords_ne⟩

/-- Settles O11. -/
theorem resetSatisfiesInv : Obligations.ResetSatisfiesInv :=
  ⟨engineInv_resetAt 0, engineInv_resetAt⟩

/-- Settles O56: the fields read off the packed words, and the codes as they are defined. -/
theorem statusAndCfgFields : Obligations.StatusAndCfgFields := by
  intro s
  obtain ⟨hbusy, hovr, hefatal, hentInit, hsmV, hxoV⟩ := statusWord_flags s
  obtain ⟨huiDef, hudDef⟩ := cfgWord_defaults s
  exact ⟨hbusy, hovr, hefatal, hentInit, statusWord_err s, hsmV, hxoV, statusWord_lt s, huiDef, hudDef, cfgWord_lt s,
    rfl, rfl, rfl, rfl, rfl, rfl, rfl, rfl, s.err.code_lt, rfl, rfl, rfl⟩

end Sys2Proof.Proofs
end

section
/-! SUPPORT. Which steps go on: an access inside the window and outside it, aligned and not (20_memory.md R70, R72), and every other event. -/

namespace Sys2Proof.Machine

open Sys2Proof.Safety

/-! ## Accesses that stop the run -/

/-- An access outside the window faults (R70, log 11). -/
theorem hostAccess_outside {addr : Nat} {s : State} (h : addr < s.engineBase ∨ s.engineBase + windowBytes ≤ addr) (width : Nat)
    (serve : Nat → State) : hostAccess addr width serve s = .fault .outsideWindow := by
  unfold hostAccess
  rw [State.windowOffset_eq_none.2 h]

/-- An access in the window that is not an aligned one of 8 bytes is refused (R72). -/
theorem hostAccess_undefined {off width : Nat} (s : State) (hoff : off < windowBytes) (h : width ≠ 8 ∨ off % 8 ≠ 0) (serve : Nat → State) :
    hostAccess (s.engineBase + off) width serve s = .refused .narrowOrMisalignedAccess := by
  have hundefined : ¬ definedAccess off width = true := by
    rw [definedAccess_eq_true]
    omega
  unfold hostAccess
  rw [State.windowOffset_eq_some.2 ⟨rfl, hoff⟩]
  exact if_neg hundefined

/-! ## Steps that go on -/

/-- An access is served exactly when it is in the window, 8 bytes wide and aligned. -/
theorem hostAccess_goes_on_iff {addr width : Nat} {serve : Nat → State} {s : State} :
    (∃ t, hostAccess addr width serve s = .next t) ↔ ∃ off, addr = s.engineBase + off ∧ off < windowBytes ∧ width = 8 ∧ off % 8 = 0 := by
  constructor
  · rintro ⟨t, h⟩
    obtain ⟨off, haddr, hoff, hwidth, h8, -⟩ := hostAccess_next h
    exact ⟨off, haddr, hoff, hwidth, h8⟩
  · rintro ⟨off, rfl, hoff, rfl, h8⟩
    exact ⟨_, hostAccess_of_defined serve s hoff h8⟩

theorem serveInput_goes_on_iff (a : Input) (s : State) : (∃ t, serveInput a s = .next t) ↔ SafeInput s.engineBase a := by
  cases a with
  | read | write => exact hostAccess_goes_on_iff
  | entAvail | entWord | engine | reset => exact ⟨fun _ => trivial, fun _ => ⟨_, rfl⟩⟩

/-- Resolving the generator stops no run: at worst it raises (R155). -/
theorem withGen_goes_on {gsel : GSel} {d : Option Gen} {s : State} {k : Gen → Result} (hk : ∀ g, ∃ t, k g = .next t) :
    ∃ t, withGen gsel d s k = .next t := by
  unfold withGen
  cases resolveGen gsel d s with
  | error e => exact ⟨_, rfl⟩
  | ok g => exact hk g

theorem uiMapTurn_goes_on (lb ub : Half) (g : Gen) (s : State) : ∃ t, uiMapTurn lb ub g s = .next t := by
  unfold uiMapTurn
  split
  split <;> exact ⟨_, rfl⟩

theorem withEntropy_goes_on (s : State) (k : Word → State → State) : ∃ t, withEntropy s k = .next t := by
  unfold withEntropy
  split
  · split <;> exact ⟨_, rfl⟩
  · split <;> exact ⟨_, rfl⟩

/-- No command stops the run. -/
theorem exec_goes_on (i : Instr) (s : State) : ∃ t, exec i s = .next t := by
  cases i with
  | nop | clrstat | smSeed | xoSeed | uiSetdef | udSetdef => exact ⟨_, rfl⟩
  | smSeedEnt | xoSeedEnt =>
    simp only [exec, execSmSeedEnt, execXoSeedEnt]
    exact withEntropy_goes_on _ _
  | next64 | next32 | udSample => exact withGen_goes_on fun _ => ⟨_, rfl⟩
  | uiSample => exact withGen_goes_on fun g => uiMapTurn_goes_on _ _ g s
  | xoSetstate | uiSetlb | uiSetub =>
    simp only [exec, execXoSetstate, execUiSetlb, execUiSetub]
    split <;> exact ⟨_, rfl⟩
  | fill =>
    simp only [exec, execFill]
    split
    · exact ⟨_, rfl⟩
    · exact withGen_goes_on fun _ => ⟨_, rfl⟩
  | uiSamplerange =>
    simp only [exec, execUiSamplerange]
    split
    · exact withGen_goes_on fun g => uiMapTurn_goes_on _ _ g s
    · exact ⟨_, rfl⟩

theorem engineTurn_goes_on (s : State) : ∃ t, engineTurn s = .next t := by
  unfold engineTurn
  split
  · exact ⟨_, rfl⟩
  · split
    · exact ⟨_, rfl⟩
    · exact exec_goes_on _ s

/-! ## The base of the window -/

/-- No step moves the window (R70). -/
theorem step_engineBase {s t : State} (h : step s = .next t) : t.engineBase = s.engineBase := by
  cases step_cases h with
  | engine _ hturn =>
    rcases engineTurn_cases hturn with ⟨-, rfl⟩ | ⟨-, -, -, -, rfl⟩ | ⟨-, i, -, -, hexec⟩
    · rfl
    · rfl
    · obtain ⟨-, -, -, -, -, -, -, hbase⟩ := hexec.keeps_port
      exact hbase
  | write off v => rw [hostWrite_keeps]
  | read | entAvail | entWord | reset => rfl

end Sys2Proof.Machine
end

section
/-! SUPPORT. The register map (20_memory.md R71, R75, R81): which register an offset holds, and what reading and writing it does in an idle
and in a busy engine (R73, R74, R77, R78). -/

namespace Sys2Proof.Machine

/-! ## Offsets -/

/-- An aligned offset holds a register only where R71 puts it. -/
theorem offset_of_regAt {off : Nat} {r : Reg} (h : regAt off = some r) (h8 : off % 8 = 0) : off = r.offset := by
  unfold regAt at h
  split_ifs at h <;> obtain rfl := Option.some.inj h <;> simp only [Reg.offset] <;> omega

/-- The offsets of the rows R71 marks "—" hold no register (R75). -/
theorem regAt_unmapped {off : Nat} (h : (0x040 ≤ off ∧ off < 0x100) ∨ 0x200 ≤ off) : regAt off = none := by
  unfold regAt
  iterate 8 rw [if_neg (by omega)]
  exact dif_neg (by omega)

/-- The aligned offsets from 0x100 to 0x1FF are those of the words of FBUF (R81). -/
theorem exists_fbuf_offset {off : Nat} (h : 0x100 ≤ off ∧ off < 0x200) (h8 : off % 8 = 0) : ∃ j : Fin 32, off = (Reg.fbuf j).offset :=
  ⟨⟨(off - 0x100) / 8, by omega⟩, by change off = 0x100 + 8 * ((off - 0x100) / 8); omega⟩

/-! ## Reads -/

section
variable {s : State}

theorem readValue_idle (h : s.busy = false) (r : Reg) : s.readValue r.offset = s.idleRead r := by
  simp [State.readValue, regAt_offset, h]

theorem readValue_busy (h : s.busy = true) (r : Reg) : s.readValue r.offset = s.busyRead (Config.freeWord s.freeCtr) r := by
  simp [State.readValue, regAt_offset, h]

theorem readValue_unmapped {off : Nat} (h : (0x040 ≤ off ∧ off < 0x100) ∨ 0x200 ≤ off) : s.readValue off = 0 := by
  simp [State.readValue, regAt_unmapped h]

/-- A read of an idle engine takes no free value. -/
theorem readDraws_idle (h : s.busy = false) (off : Nat) : s.readDraws off = 0 := by
  unfold State.readDraws
  cases regAt off <;> simp [h]

end

/-- Reading a bound gives its signed value (R71). -/
theorem toInt_sext64 (x : Half) : (sext64 x).toInt = x.toInt :=
  BitVec.toInt_signExtend_of_le (by decide)

/-- Byte 0 of a word is the last byte appended to it, and the bytes above are those of the rest. -/
theorem extractLsb'_append_byte {n : Nat} (x : BitVec n) (b : Byte) (k : Nat) :
    (x ++ b).extractLsb' (8 * k) 8 = if k = 0 then b else x.extractLsb' (8 * (k - 1)) 8 := by
  split
  · subst k
    exact BitVec.extractLsb'_append_eq_right
  · rw [BitVec.extractLsb'_append_eq_of_le (by omega), Nat.mul_sub_one]

/-- Byte `k` of FBUF word `j` is byte `8j + k` of the buffer, low byte first (R81). -/
theorem byteOf_fbufWord (s : State) (j : Fin 32) {k : Nat} (hk : k < 8) {i : Fin 256} (hi : i.val = 8 * j.val + k) :
    byteOf (s.fbufWord j) k = s.fbufByte i := by
  obtain ⟨i, hlt⟩ := i
  subst hi
  simp only [byteOf, State.fbufWord, extractLsb'_append_byte]
  interval_cases k <;> simp

/-- STATUS of a busy engine reads BUSY = 1 in bit 0 (R78) and 0 in the reserved bits (R49), whatever the free value. -/
theorem busyStatusWord_bit_zero (free : Word) : (busyStatusWord free).getLsbD 0 = true := by
  rw [busyStatusWord, BitVec.getLsbD_append]
  rfl

theorem busyStatusWord_lt (free : Word) : (busyStatusWord free).toNat < 2 ^ 10 :=
  toNat_append_lt (k := 9) _ _ (toNat_append_lt (k := 0) _ _ (by decide))

/-! ## Writes -/

/-- While BUSY = 1, a write to one of the three registers the host may write is dropped, and OVR records it (R77, R45). -/
theorem hostWrite_busy {s : State} (h : s.busy = true) {r : Reg} (hr : r = .cmd ∨ r = .arg0 ∨ r = .arg1) (v : Word) :
    hostWrite r.offset v s = { s with ovr := true } := by
  unfold hostWrite
  rw [regAt_offset]
  rcases hr with rfl | rfl | rfl <;> exact if_pos h

/-- Everywhere but at CMD, ARG0 and ARG1 a write is ignored (R75, R76, R77). -/
theorem hostWrite_ignored {off : Nat} (h8 : off % 8 = 0) (h : off ≠ 0x000 ∧ off ≠ 0x010 ∧ off ≠ 0x018) (v : Word) (s : State) :
    hostWrite off v s = s := by
  obtain ⟨hcmd, harg0, harg1⟩ := h
  unfold hostWrite
  cases hr : regAt off with
  | none => rfl
  | some r =>
    have hoff := offset_of_regAt hr h8
    cases r with
    | cmd => exact absurd hoff hcmd
    | arg0 => exact absurd hoff harg0
    | arg1 => exact absurd hoff harg1
    | status | res | lb | ub | cfg | fbuf => rfl

section
variable {s : State} (h : s.busy = false) (v : Word)
include h

theorem hostWrite_cmd_idle : hostWrite Reg.cmd.offset v s = s.accept v := by
  simp [hostWrite, regAt_offset, h]

theorem hostWrite_arg0_idle : hostWrite Reg.arg0.offset v s = { s with arg0 := v } := by
  simp [hostWrite, regAt_offset, h]

theorem hostWrite_arg1_idle : hostWrite Reg.arg1.offset v s = { s with arg1 := v } := by
  simp [hostWrite, regAt_offset, h]

end

end Sys2Proof.Machine
end

section
/-! SUPPORT. The turns of an entropy command, one equation for each way of the check of R98 and for the wait (20_memory.md R96 to R98). -/

namespace Sys2Proof.Machine

open Sys2Proof.Safety

/-- The two entropy commands differ only in what they do with the word. -/
theorem exec_entropyCommand {i : Instr} (hi : i = .smSeedEnt ∨ i = .xoSeedEnt) (s : State) : ∃ k, exec i s = withEntropy s k := by
  rcases hi with rfl | rfl
  · exact ⟨_, by rw [exec, execSmSeedEnt]⟩
  · exact ⟨_, by rw [exec, execXoSeedEnt]⟩

section
variable {s : State} (k : Word → State → State)

/-- EFATAL is sticky: once it is set, every request raises and writes nothing (R46, R98). -/
theorem withEntropy_of_fatal (hr : s.entReq = false) (h : s.efatal = true) : withEntropy s k = raised .entropyUnavailable s := by
  simp [withEntropy, entropyInit, hr, h]

/-- The first use of a facility that is not available sets ENTINIT and EFATAL and raises (R98). -/
theorem withEntropy_of_unavailable (hr : s.entReq = false) (hfatal : s.efatal = false) (hinit : s.entInit = false) (havail : s.entAvail = false) :
    withEntropy s k = raised .entropyUnavailable { s with entInit := true, efatal := true } := by
  simp [withEntropy, entropyInit, hr, hfatal, hinit, havail]

/-- The first turn with a usable facility sets ENTINIT and raises ENT_REQ (R96, R98). -/
theorem withEntropy_of_usable (hr : s.entReq = false) (h : EntropyUsable s) :
    withEntropy s k = .next ({ s with entInit := true } : State).wait := by
  simp [withEntropy, hr, entropyInit_of_usable h]

/-- With ENT_REQ raised and no word delivered the command waits (R97). -/
theorem withEntropy_of_no_word (hr : s.entReq = true) (hv : s.entValid = false) : withEntropy s k = .next s := by
  simp [withEntropy, hr, hv]

end

end Sys2Proof.Machine
end

section
/-! SUPPORT. The statements about the MMIO window and the entropy port (20_memory.md) that are settled. -/

namespace Sys2Proof.Proofs

open Sys2Proof.Machine Sys2Proof.Safety

/-- Settles O8: a turn of the engine always goes on, and another event goes on exactly when it is safe. -/
theorem stepStopsOnlyOnUndefinedAccesses : Obligations.StepStopsOnlyOnUndefinedAccesses := by
  intro s
  by_cases hm : EngineMoves s
  · rw [step_of_engineMoves hm]
    refine iff_of_true (engineTurn_goes_on _) fun i rest hin => ?_
    rcases hm with hnil | ⟨_, hengine⟩
    · simp [hnil] at hin
    · obtain ⟨rfl, -⟩ := List.cons.inj (hengine.symm.trans hin)
      trivial
  · obtain ⟨a, rest, hin⟩ := List.exists_cons_of_ne_nil fun hnil => hm (.inl hnil)
    have ha : a ≠ .engine := by
      rintro rfl
      exact hm (.inr ⟨rest, hin⟩)
    rw [step_of_input hin ha, serveInput_goes_on_iff]
    constructor
    · intro hsafe i rest' hin'
      obtain ⟨rfl, -⟩ := List.cons.inj (hin.symm.trans hin')
      exact hsafe
    · exact fun hsafe => hsafe a rest hin

/-- Settles O10: the fault is that of every access outside the window, and every kind of step keeps the base. -/
theorem theWindowStandsAtEngineBase : Obligations.TheWindowStandsAtEngineBase :=
  ⟨fun s _ width _ rest h =>
      ⟨hostAccess_outside (s := { s with inputs := rest }) h width _, hostAccess_outside (s := { s with inputs := rest }) h width _⟩,
    fun _ _ => step_engineBase⟩

/-- Settles O55: the register at the offset, read in an idle engine. -/
theorem readsWhileIdleFollowTheRegisterMap : Obligations.ReadsWhileIdleFollowTheRegisterMap := by
  intro s off rest hin hidle hoff h8
  have hread : ∀ r : Reg, off = r.offset → s.readValue off = s.idleRead r := by
    rintro r rfl
    exact readValue_idle hidle r
  refine ⟨s.readValue off, ?_, hread .cmd, hread .status, hread .arg0, hread .arg1, hread .res, fun h => ?_, fun h => ?_, hread .cfg,
    fun h => readValue_unmapped (.inl h), fun hfbuf k i hk hi => ?_, fun h => readValue_unmapped (.inr h)⟩
  · have hdraws : State.readDraws { s with inputs := rest } off = 0 := readDraws_idle hidle off
    rw [step_read hin hoff h8, hostRead, hdraws]
    rfl
  · rw [hread .lb h]
    exact toInt_sext64 s.lb
  · rw [hread .ub h]
    exact toInt_sext64 s.ub
  · obtain ⟨j, rfl⟩ := exists_fbuf_offset hfbuf h8
    rw [hread (.fbuf j) rfl]
    have hbyte : i.val = 8 * j.val + k := by
      simp only [Reg.offset] at hi
      omega
    exact byteOf_fbufWord s j hk hbyte

/-- Settles O9: the step is the access, served in the state its event has left the queue of. -/
theorem narrowOrMisalignedAccessIsRefused : Obligations.NarrowOrMisalignedAccessIsRefused :=
  fun s _ _ _ rest hoff h => ⟨hostAccess_undefined { s with inputs := rest } hoff h _, hostAccess_undefined { s with inputs := rest } hoff h _⟩

/-- Settles O22: the two ways in which the check of R98 fails. -/
theorem entropyCommandsRaiseWhenUnavailable : Obligations.EntropyCommandsRaiseWhenUnavailable := by
  intro i s hi hr
  obtain ⟨k, hk⟩ := exec_entropyCommand hi s
  rw [hk]
  exact ⟨withEntropy_of_fatal k hr, withEntropy_of_unavailable k hr⟩

/-- Settles O23: the turn of the request, and a turn of the wait. -/
theorem entropyCommandsRequestAWordAndWait : Obligations.EntropyCommandsRequestAWordAndWait := by
  intro i s f hi hf
  obtain ⟨k, hk⟩ := exec_entropyCommand hi s
  rw [hk]
  refine ⟨fun hr husable => ⟨_, withEntropy_of_usable k hr husable, ?_⟩, withEntropy_of_no_word k⟩
  simp [State.wait, hf, State.entReq, State.busy]

/-- Settles O57: one clause for each register the host may write, and one for all other offsets. -/
theorem writesWhileIdle : Obligations.WritesWhileIdle := by
  intro s off v rest hin hidle hoff h8
  have hserved : State.busy { s with inputs := rest } = false := hidle
  rw [step_write hin hoff h8]
  refine ⟨?_, ?_, ?_, fun h => congrArg _ (hostWrite_ignored h8 h v _)⟩
  · rintro rfl
    exact ⟨_, _, congrArg _ (hostWrite_cmd_idle hserved v), rfl, rfl, rfl, rfl, rfl, rfl, rfl, rfl, rfl, rfl⟩
  · rintro rfl
    exact congrArg _ (hostWrite_arg0_idle hserved v)
  · rintro rfl
    exact congrArg _ (hostWrite_arg1_idle hserved v)

/-- Settles O58: one clause for the registers the host may write, and one for all other offsets. -/
theorem writesWhileBusyAreDropped : Obligations.WritesWhileBusyAreDropped := by
  intro s off v rest hin hbusy hoff h8
  have hserved : State.busy { s with inputs := rest } = true := hbusy
  rw [step_write hin hoff h8]
  refine ⟨?_, fun h => congrArg _ (hostWrite_ignored h8 h v _)⟩
  rintro (rfl | rfl | rfl)
  · exact congrArg _ (hostWrite_busy hserved (r := .cmd) (.inl rfl) v)
  · exact congrArg _ (hostWrite_busy hserved (r := .arg0) (.inr (.inl rfl)) v)
  · exact congrArg _ (hostWrite_busy hserved (r := .arg1) (.inr (.inr rfl)) v)

/-- Settles O59: the registers that have a value while BUSY = 1, and the unmapped offsets. -/
theorem readsWhileBusy : Obligations.ReadsWhileBusy := by
  intro s off rest hin hbusy hoff h8
  have hread : ∀ r : Reg, off = r.offset → s.readValue off = s.busyRead (Config.freeWord s.freeCtr) r := by
    rintro r rfl
    exact readValue_busy hbusy r
  refine ⟨s.readValue off, _, step_read hin hoff h8, hread .cmd, fun h => ?_, hread .arg0, hread .arg1,
    fun h => readValue_unmapped (.inl h), fun h => readValue_unmapped (.inr h)⟩
  rw [hread .status h]
  exact ⟨busyStatusWord_bit_zero _, busyStatusWord_lt _⟩

end Sys2Proof.Proofs
end

section
/-! SUPPORT. The opcode map of the decoder against the table of R118, and the command word as its fields (30_encoding.md R111, R114, R118, R119). -/

namespace Sys2Proof

open Sys2Proof.Safety

/-! ## The word of a command -/

/-- A word is its upper half and its four fields, put together (R110, R111). -/
theorem packFields_fields {v : Word} (hupper : fieldUpper v = 0) :
    packFields (fieldLen v) (fieldRsv v) (fieldGsel v) (fieldOpc v) = v := by
  have hword : fieldUpper v ++ fieldLen v ++ fieldRsv v ++ fieldGsel v ++ fieldOpc v = v := by
    unfold fieldUpper fieldLen fieldRsv fieldGsel fieldOpc
    iterate 4 rw [BitVec.extractLsb'_append_extractLsb'_eq_extractLsb' (by rfl)]
    exact BitVec.extractLsb'_eq_self
  rw [hupper] at hword
  exact hword

/-- The row of a well-formed command passes the checks of R119 on its fields and builds the command (R118). -/
theorem opRow_opc {i : Instr} (h : i.wf = true) :
    ∃ r, opRow i.opc = some r ∧ r.gsel.allows i.gsel = true ∧ (r.usesLen = true ∨ i.len = 0) ∧ i = r.build i.gsel i.len := by
  cases i with
  | next64 | next32 => exact ⟨_, rfl, h, .inr rfl, rfl⟩
  | fill => exact ⟨_, rfl, h, .inl rfl, rfl⟩
  | _ => exact ⟨_, rfl, rfl, .inr rfl, rfl⟩

/-- What a decoded command says of its word: the two zero checks of R119, and its OPC, GSEL and LEN. -/
theorem fields_of_decode {v : Word} {i : Instr} (h : decode v = .ok i) :
    fieldUpper v = 0 ∧ fieldRsv v = 0 ∧ i.wf = true ∧ i.opc = fieldOpc v ∧ i.gsel.bits = fieldGsel v ∧ i.len = fieldLen v := by
  obtain ⟨hupper, hrsv, r, hr, g, hg, hallows, hlen, rfl⟩ := decode_eq_ok.1 h
  obtain ⟨hwf, hopc, hgsel, hn⟩ := opRow_build hr hallows hlen
  exact ⟨hupper, hrsv, hwf, hopc, (congrArg GSel.bits hgsel).trans (GSel.bits_of_ofBits hg), hn⟩

/-! ## The table of R118 -/

/-- The GSEL field values that a rule of the decoder allows, as the table of R118 lists them. -/
def GselRule.values : GselRule → List Nat
  | .zeroOnly => [0]
  | .named => [1, 2]
  | .any => [0, 1, 2]

theorem GselRule.mem_values {rule : GselRule} {b : BitVec 2} :
    b.toNat ∈ rule.values ↔ ∃ g, GSel.ofBits b = some g ∧ rule.allows g = true := by
  have hcases : b = 0 ∨ b = 1 ∨ b = 2 ∨ b = 3 := by revert b; decide
  rcases hcases with rfl | rfl | rfl | rfl <;> cases rule <;> simp [values, GSel.ofBits, allows, GSel.named]

/-- The row of the table of R118 for the decoder's row of the opcode `o`. -/
def OpRow.tableRow (o : BitVec 8) (r : OpRow) : TableRow := ⟨o.toNat, r.gsel.values, r.usesLen⟩

/-- The decoder's opcode map has the rows of the table of R118, and no others. -/
theorem mem_opcodeMap {row : TableRow} : row ∈ opcodeMap ↔ ∃ o r, opRow o = some r ∧ row = r.tableRow o := by
  constructor
  · intro h
    refine ⟨.ofNat 8 row.opc, ?_⟩
    unfold opcodeMap at h
    fin_cases h <;> exact ⟨_, rfl, rfl⟩
  · rintro ⟨o, r, h, rfl⟩
    revert h
    unfold opRow
    split <;> rintro ⟨⟩ <;> simp [opcodeMap, OpRow.tableRow, GselRule.values]

/-- A CMD write decodes exactly when it passes the checks of R119 against the table of R118. -/
theorem decodes_iff_legalWrite (v : Word) : (∃ i, decode v = .ok i) ↔ LegalWrite v := by
  have hupper : fieldUpper v = 0 ↔ v.toNat / 2 ^ 32 = 0 := by rw [← fieldUpper_toNat, BitVec.toNat_eq]; rfl
  have hrsv : fieldRsv v = 0 ↔ v.toNat / 2 ^ 10 % 2 ^ 6 = 0 := by rw [← fieldRsv_toNat, BitVec.toNat_eq]; rfl
  have hlen : fieldLen v = 0 ↔ v.toNat / 2 ^ 16 % 2 ^ 16 = 0 := by rw [← fieldLen_toNat, BitVec.toNat_eq]; rfl
  unfold LegalWrite
  rw [← hupper, ← hrsv, ← hlen, ← fieldOpc_toNat, ← fieldGsel_toNat]
  constructor
  · rintro ⟨i, h⟩
    obtain ⟨hu, hz, r, hr, g, hg, hallows, hl, -⟩ := decode_eq_ok.1 h
    exact ⟨hu, hz, _, mem_opcodeMap.2 ⟨_, r, hr, rfl⟩, rfl, GselRule.mem_values.2 ⟨g, hg, hallows⟩,
      fun hno => hl.resolve_left (Bool.eq_false_iff.1 hno)⟩
  · rintro ⟨hu, hz, row, hmem, hopc, hgsel, hl⟩
    obtain ⟨o, r, hr, rfl⟩ := mem_opcodeMap.1 hmem
    obtain rfl : o = fieldOpc v := BitVec.eq_of_toNat_eq hopc
    obtain ⟨g, hg, hallows⟩ := GselRule.mem_values.1 hgsel
    refine ⟨_, decode_eq_ok.2 ⟨hu, hz, r, hr, g, hg, hallows, ?_, rfl⟩⟩
    exact (Bool.eq_false_or_eq_true r.usesLen).imp_right hl

end Sys2Proof
end

section
/-! SUPPORT. What a command does when its operand check passes, and when its generator cannot be resolved (40_execution.md R155; 43_bit_generator.md R222;
44_uniform_int.md R240, R241, R249), and the steps from an operand write to the end of the command (30_encoding.md R125). -/

namespace Sys2Proof.Machine

/-! ## Generator resolution that fails (R155, R304) -/

section
variable {gsel : GSel} {d : Option Gen} {s : State} {k : Gen → Result}

theorem withGen_of_no_default (h : d = none) : withGen .dflt d s k = raised .nullGenerator s := by
  simp [withGen, resolveGen, gselTarget, h]

theorem withGen_of_unseeded {g : Gen} (h : gselTarget gsel d = some g) (hs : s.seeded g = false) : withGen gsel d s k = raised .unseeded s := by
  simp [withGen, resolveGen, h, hs]

end

/-! ## Operand checks that pass -/

section
variable {s : State}

theorem exec_fill_of_length (gsel : GSel) {n : BitVec 16} (h : n.toNat ≤ Config.fbufBytes) : ∃ k, exec (.fill gsel n) s = withGen gsel none s k :=
  ⟨_, if_neg (Nat.not_lt.2 h)⟩

theorem exec_uiSamplerange_of_le (gsel : GSel) (h : (trunc32 s.a0).toInt ≤ (trunc32 s.a1).toInt) :
    ∃ k, exec (.uiSamplerange gsel) s = withGen gsel s.uiDef s k :=
  ⟨_, if_pos (leI32_eq_true.2 h)⟩

theorem exec_uiSetlb_of_le (h : (trunc32 s.a0).toInt ≤ s.ub.toInt) : exec .uiSetlb s = done { s with lb := trunc32 s.a0 } :=
  if_pos (leI32_eq_true.2 h)

theorem exec_uiSetub_of_le (h : s.lb.toInt ≤ (trunc32 s.a0).toInt) : exec .uiSetub s = done { s with ub := trunc32 s.a0 } :=
  if_pos (leI32_eq_true.2 h)

end

/-- The bound that SET_BOUNDS writes first, the least there is (R125). -/
def leastBound : Half := 0x80000000

theorem leastBound_le (x : Half) : leastBound.toInt ≤ x.toInt :=
  BitVec.le_toInt x

/-! ## Runs -/

section
variable {M : Host.Core} {s t : M.State}

theorem run_succ_of_step (h : M.step s = .next t) (n : Nat) : M.run (n + 1) s = M.run n t := by
  rw [Host.Core.run, h]

/-- A run goes on from where its first steps ended. -/
theorem run_add {m : Nat} (h : M.run m s = .next t) (n : Nat) : M.run (m + n) s = M.run n t := by
  induction m generalizing s with
  | zero =>
    obtain rfl : s = t := by injection h
    rw [Nat.zero_add]
  | succ m ih =>
    rw [Nat.succ_add]
    cases hs : M.step s with
    | next u =>
      rw [run_succ_of_step hs] at h ⊢
      exact ih h
    | fault | refused =>
      rw [Host.Core.run, hs] at h
      cases h

end

/-- A run of the engine after its first step. -/
theorem run_of_step {s t : State} (h : step s = .next t) (n : Nat) : core.run (n + 1) s = core.run n t :=
  run_succ_of_step (M := core) h n

/-! ## Commands issued with one operand (R125) -/

section
variable {s : State} {v : Word} {rest : List Input} (hidle : s.inflight = none)
include hidle

theorem step_write_arg0_idle (hin : s.inputs = .write (s.engineBase + 0x010) 8 v :: rest) :
    step s = .next { s with arg0 := v, inputs := rest } := by
  rw [step_write hin (by decide) (by decide)]
  exact congrArg _ (hostWrite_arg0_idle (s := { s with inputs := rest }) (State.busy_eq_false.2 hidle) v)

theorem step_write_cmd_idle (hin : s.inputs = .write (s.engineBase + 0x000) 8 v :: rest) :
    step s = .next (({ s with inputs := rest } : State).accept v) := by
  rw [step_write hin (by decide) (by decide)]
  exact congrArg _ (hostWrite_cmd_idle (s := { s with inputs := rest }) (State.busy_eq_false.2 hidle) v)

end

/-- The turn of the engine after acceptance runs the command. -/
theorem step_accept {s : State} {w : Word} {i : Instr} {rest : List Input} (hin : s.inputs = .engine :: rest) (hd : decode w = .ok i) :
    step (s.accept w) = exec i (({ s with inputs := rest } : State).accept w) := by
  have hfetch : fetch (({ s with inputs := rest } : State).accept w) = some w := rfl
  have hturn : step (s.accept w) = engineTurn (({ s with inputs := rest } : State).accept w) := by
    simp only [step, State.accept_inputs, hin]
    rfl
  rw [hturn, engineTurn, hfetch]
  simp only [hd]

section
variable {s : State} {v : Word} {x : Half} {rest : List Input} (hidle : s.inflight = none)
include hidle

/-- A host that writes ARG0 and CMD of an idle engine and gives it its turn runs the command on that operand (the accesses of DO1, log 1). -/
theorem run_do1 {w : Word} {i : Instr} {t : State}
    (hin : s.inputs = .write (s.engineBase + 0x010) 8 v :: .write (s.engineBase + 0x000) 8 w :: .engine :: rest)
    (hd : decode w = .ok i) (ht : exec i (({ s with arg0 := v, inputs := rest } : State).accept w) = .next t) :
    core.run 3 s = .next t := by
  have harg := step_write_arg0_idle hidle hin
  have hcmd : step { s with arg0 := v, inputs := .write (s.engineBase + 0x000) 8 w :: .engine :: rest } =
      .next (({ s with arg0 := v, inputs := .engine :: rest } : State).accept w) := step_write_cmd_idle hidle rfl
  have hturn := (step_accept (s := { s with arg0 := v, inputs := .engine :: rest }) rfl hd).trans ht
  calc core.run 3 s = core.run 2 _ := run_of_step harg 2
    _ = core.run 1 _ := run_of_step hcmd 1
    _ = .next t := run_of_step hturn 0

/-- DO1 UI_SETLB with a bound that does not exceed UB (R240). -/
theorem run_setlb (hx : trunc32 v = x)
    (hin : s.inputs = .write (s.engineBase + 0x010) 8 v :: .write (s.engineBase + 0x000) 8 0x40 :: .engine :: rest)
    (hle : x.toInt ≤ s.ub.toInt) :
    core.run 3 s = .next { s with lb := x, arg0 := v, err := .ok, inflight := none, inputs := rest } := by
  subst hx
  exact run_do1 hidle hin (i := .uiSetlb) (by decide) (exec_uiSetlb_of_le hle)

/-- DO1 UI_SETUB with a bound that is not below LB (R241). -/
theorem run_setub (hx : trunc32 v = x)
    (hin : s.inputs = .write (s.engineBase + 0x010) 8 v :: .write (s.engineBase + 0x000) 8 0x41 :: .engine :: rest)
    (hle : s.lb.toInt ≤ x.toInt) :
    core.run 3 s = .next { s with ub := x, arg0 := v, err := .ok, inflight := none, inputs := rest } := by
  subst hx
  exact run_do1 hidle hin (i := .uiSetub) (by decide) (exec_uiSetub_of_le hle)

end

end Sys2Proof.Machine
end

section
/-! SUPPORT. The statements about the encoding of commands and their operands (30_encoding.md) that are settled. -/

namespace Sys2Proof.Proofs

open Sys2Proof.Machine Sys2Proof.Safety

/-- Settles O1: the decoder reads the fields that the encoder packed, and the row of the command's OPC builds it from them. -/
theorem decodeOfEncodeIsTheCommand : Obligations.DecodeOfEncodeIsTheCommand := by
  intro i hwf
  obtain ⟨hupper, hrsv, hopc, hgsel, hlen⟩ := Laws.encodedFields i
  obtain ⟨r, hr, hallows, hl, hbuild⟩ := opRow_opc hwf
  rw [decode_eq_ok, hopc, hgsel, hlen]
  exact ⟨hupper, hrsv, r, hr, i.gsel, GSel.ofBits_bits i.gsel, hallows, hl, hbuild⟩

/-- Settles O2: the command has the fields of the word, and its encoding packs them again. -/
theorem encodeOfDecodeIsTheWord : Obligations.EncodeOfDecodeIsTheWord := by
  intro v i h
  obtain ⟨hupper, hrsv, hwf, hopc, hgsel, hlen⟩ := fields_of_decode h
  refine ⟨hwf, ?_⟩
  rw [encode, hopc, hgsel, hlen, ← hrsv]
  exact packFields_fields hupper

/-- Settles O3: the decoder's opcode map is the table of R118, and the fields are the bits at their positions. -/
theorem decodeFollowsTheOpcodeMap : Obligations.DecodeFollowsTheOpcodeMap := by
  refine fun v => ⟨decodes_iff_legalWrite v, fun i h => ?_⟩
  obtain ⟨-, -, -, hopc, hgsel, hlen⟩ := fields_of_decode h
  rw [hopc, hgsel, hlen]
  exact ⟨fieldOpc_toNat v, fieldGsel_toNat v, fieldLen_toNat v⟩

/-- Settles O6: a word that is not legal does not decode, and the turn of the engine raises ILLEGAL. -/
theorem illegalWordRaisesIllegal : Obligations.IllegalWordRaisesIllegal := by
  intro s f hm hf hillegal
  rw [step_of_engineMoves hm]
  have hfetch : fetch { s with inputs := s.inputs.tail } = some f.word := congrArg (Option.map _) hf
  cases hd : decode f.word with
  | ok i => exact absurd ((decodes_iff_legalWrite _).1 ⟨i, hd⟩) hillegal
  | error e =>
    simp only [engineTurn, hfetch, hd]
    rfl

/-- Settles O33: no bound written is on the wrong side of the other, since the first LB is the least there is, and the second UB is not below the last LB. -/
theorem setBoundsSequenceNeverRaises : Obligations.SetBoundsSequenceNeverRaises := by
  intro s lb ub hidle _ hle hin
  have hfirst := run_setlb (x := leastBound) hidle rfl hin (leastBound_le s.ub)
  have hsecond := (run_add hfirst 3).trans (run_setub rfl (trunc32_zext64 ub) rfl (leastBound_le ub))
  have hthird := (run_add hsecond 3).trans (run_setlb rfl (trunc32_zext64 lb) rfl hle)
  exact ⟨_, _, _, hfirst, hsecond, hthird, rfl, rfl, rfl⟩

/-- Settles O4. -/
theorem wordsOfTheSpecDecode : Obligations.WordsOfTheSpecDecode := by
  unfold Obligations.WordsOfTheSpecDecode
  decide

/-- Settles O39: once its operands are valid, each drawing command resolves its generator before anything else. -/
theorem generatorResolutionErrors : Obligations.GeneratorResolutionErrors := by
  intro s gsel g n
  refine ⟨fun _ => ⟨rfl, rfl, rfl⟩, ⟨rfl, rfl⟩, withGen_of_no_default, fun hd hle => ?_, withGen_of_no_default,
    fun hs hg => ⟨withGen_of_unseeded hg hs, fun hle => ?_⟩, fun hs hg => withGen_of_unseeded hg hs,
    fun hs hg => ⟨withGen_of_unseeded hg hs, withGen_of_unseeded hg hs, fun hn => ?_⟩⟩
  · obtain ⟨k, hk⟩ := exec_uiSamplerange_of_le .dflt hle
    exact hk.trans (withGen_of_no_default hd)
  · obtain ⟨k, hk⟩ := exec_uiSamplerange_of_le gsel hle
    exact hk.trans (withGen_of_unseeded hg hs)
  · obtain ⟨k, hk⟩ := exec_fill_of_length gsel hn
    exact hk.trans (withGen_of_unseeded hg hs)

end Sys2Proof.Proofs
end

section
/-! SUPPORT. A turn of the engine on a command that decodes, and the commands that write RES (40_execution.md R150, R154). -/

namespace Sys2Proof.Machine

open Sys2Proof.Safety

variable {s t : State} {i : Instr}

/-- A turn of the engine runs the command that the word in flight decodes to (R150). -/
theorem engineTurn_of_decoded {f : InFlight} (hf : s.inflight = some f) (hd : decode f.word = .ok i) : engineTurn s = exec i s := by
  have hfetch : fetch s = some f.word := congrArg (Option.map _) hf
  simp only [engineTurn, hfetch, hd]

/-- The sampling commands are among those that write RES (R248, R249). -/
theorem writesRes_of_samples {gsel : GSel} {lb ub : Half} (hi : Samples i s gsel lb ub) : writesRes i = true := by
  rcases hi with ⟨rfl, -⟩ | ⟨rfl, -⟩ <;> rfl

/-- A command that changes RES is one of the five and has completed normally (R154). -/
theorem ExecCase.writesRes_of_res_ne (h : ExecCase s i t) (hne : t.res ≠ s.res) :
    t.err = .ok ∧ t.inflight = none ∧ writesRes i = true := by
  cases h with
  | next64 | next32 | udSample => exact ⟨rfl, rfl, rfl⟩
  | sample _ _ _ _ _ _ hi => exact ⟨rfl, rfl, writesRes_of_samples hi⟩
  | _ => exact absurd rfl hne

end Sys2Proof.Machine
end

section
/-! SUPPORT. The statements about the execution of commands (40_execution.md) that are settled. -/

namespace Sys2Proof.Proofs

open Sys2Proof.Machine Sys2Proof.Safety

/-- Settles O16: an idle turn and an illegal word leave RES, and of the commands only the five that complete normally change it. -/
theorem resIsWrittenOnlyByTheFiveCommands : Obligations.ResIsWrittenOnlyByTheFiveCommands := by
  intro s t hm h hne
  rw [step_of_engineMoves hm] at h
  rcases engineTurn_cases h with ⟨-, rfl⟩ | ⟨-, -, -, -, rfl⟩ | ⟨f, i, hf, hd, hexec⟩
  · exact absurd rfl hne
  · exact absurd rfl hne
  · obtain ⟨herr, hdone, hi⟩ := hexec.writesRes_of_res_ne hne
    exact ⟨herr, hdone, f, i, hf, hd, hi⟩

/-- Settles O5: the turn runs in the state whose event has left the queue, which has the same command in flight. -/
theorem stepRunsTheDecodedCommand : Obligations.StepRunsTheDecodedCommand := by
  intro s f i hm hf hd
  refine ⟨?_, by rw [State.a0, hf], by rw [State.a1, hf]⟩
  rw [step_of_engineMoves hm]
  exact engineTurn_of_decoded hf hd

/-- Settles O20: both commands complete normally, CLRSTAT with OVR cleared. -/
theorem nopAndClrstatComplete : Obligations.NopAndClrstatComplete :=
  fun _ => ⟨rfl, rfl⟩

end Sys2Proof.Proofs
end

section
/-! SUPPORT. SplitMix64's states as an arithmetic progression, and the outputs it mixes from them (41_splitmix64.md R181 to R184). -/

namespace Sys2Proof.Machine

open Sys2Proof.Safety

/-- The words are finitely many, so a map that loses none of them reaches each of them. -/
theorem bijective_of_injective {f : Word → Word} (h : Function.Injective f) : Function.Bijective f :=
  have : Finite Word := .of_injective _ BitVec.toFin_injective
  Finite.injective_iff_bijective.1 h

/-- GAMMA is odd (R183). -/
theorem isUnit_gamma : IsUnit gamma := IsUnit.of_mul_eq_one 0xF1DE83E19937733D (by decide)

/-! ## One step -/

/-- A draw of SplitMix64 is one step on SM_S (R156). -/
theorem draw64_sm (r : GenRegs) : draw64 .sm r = ({ r with smS := (smStep r.smS).1 }, (smStep r.smS).2) := rfl

/-- The sum of R181 is that of naturals modulo 2^64 (R182). -/
theorem smStep_fst_toNat (s : Word) : (smStep s).1.toNat = (0x9E3779B97F4A7C15 + s.toNat) % 2 ^ 64 := BitVec.toNat_add gamma s

/-- The products of R180 are those of naturals modulo 2^64 (R182). -/
theorem smMix_of_toNat {z z1 z2 : Word} (h1 : z1.toNat = 0xBF58476D1CE4E5B9 * (z ^^^ (z >>> 30)).toNat % 2 ^ 64)
    (h2 : z2.toNat = 0x94D049BB133111EB * (z1 ^^^ (z1 >>> 27)).toNat % 2 ^ 64) : smMix z = z2 ^^^ (z2 >>> 31) := by
  have hz1 : z1 = mix1 * (z ^^^ (z >>> 30)) := BitVec.eq_of_toNat_eq (h1.trans (BitVec.toNat_mul mix1 _).symm)
  have hz2 : z2 = mix2 * (z1 ^^^ (z1 >>> 27)) := BitVec.eq_of_toNat_eq (h2.trans (BitVec.toNat_mul mix2 _).symm)
  rw [hz2, hz1]
  rfl

theorem smStep_fst_eq_zero {s : Word} : (smStep s).1 = 0 ↔ s = 0x61C8864680B583EB := by
  have hneg : -gamma = 0x61C8864680B583EB := by decide
  rw [smStep_fst, add_eq_zero_iff_eq_neg, hneg]

/-! ## A stream of draws -/

/-- The states are an arithmetic progression (R183). -/
theorem drawState_sm_smS (r : GenRegs) (n : Nat) : (drawState .sm r n).smS = r.smS + gamma * BitVec.ofNat 64 n := by
  induction n with
  | zero => simp
  | succ n ih =>
    have hsucc : BitVec.ofNat 64 (n + 1) = BitVec.ofNat 64 n + 1 := BitVec.ofNat_add n 1
    rw [drawState_succ, draw64_sm, smStep_fst, ih, hsucc, mul_add, mul_one, add_assoc]

/-- Each output is the mix of the next state (R181). -/
theorem drawOutput_sm (r : GenRegs) (n : Nat) : drawOutput .sm r n = smMix (drawState .sm r (n + 1)).smS := rfl

/-- Since GAMMA is odd, the states after two numbers of draws are equal exactly when the numbers agree modulo 2^64 (R183). -/
theorem drawState_sm_smS_eq_iff (r : GenRegs) (m n : Nat) :
    (drawState .sm r m).smS = (drawState .sm r n).smS ↔ m % 2 ^ 64 = n % 2 ^ 64 := by
  rw [drawState_sm_smS, drawState_sm_smS, add_right_inj, isUnit_gamma.mul_right_inj, ← BitVec.toNat_inj, BitVec.toNat_ofNat,
    BitVec.toNat_ofNat]

/-- Since SM_MIX is injective, so are the outputs of two draws (R184). -/
theorem drawOutput_sm_eq_iff (r : GenRegs) (m n : Nat) : drawOutput .sm r m = drawOutput .sm r n ↔ m % 2 ^ 64 = n % 2 ^ 64 := by
  rw [drawOutput_sm, drawOutput_sm, smMix_injective.eq_iff, drawState_sm_smS_eq_iff]
  omega

/-- Numbered by words, the draws of one period give each word exactly once (R184). -/
theorem drawOutput_sm_bijective (r : GenRegs) : Function.Bijective fun i : Word => drawOutput .sm r i.toNat := by
  refine bijective_of_injective fun i j hij => BitVec.eq_of_toNat_eq ?_
  have hmod := (drawOutput_sm_eq_iff r _ _).1 hij
  rwa [Nat.mod_eq_of_lt i.isLt, Nat.mod_eq_of_lt j.isLt] at hmod

end Sys2Proof.Machine
end

section
/-! SUPPORT. An entropy command that gets its word (20_memory.md R96 to R98). -/

namespace Sys2Proof.Machine

open Sys2Proof.Safety

/-- A command that goes on is run again from the state it left. -/
theorem execTimes_succ_of_next {i : Instr} {s t : State} (h : exec i s = .next t) (n : Nat) : execTimes i (n + 1) s = execTimes i n t := by
  simp only [execTimes, h]

/-- What SM_SEED_ENT does with its word (R186). -/
theorem exec_smSeedEnt (s : State) :
    exec .smSeedEnt s = withEntropy s fun e s1 => { s1 with gens := { s1.gens with smS := e }, smV := true } := rfl

/-- A command in flight that has requested a word waits for it (R96). -/
theorem State.wait_entReq {s : State} {f : InFlight} (hf : s.inflight = some f) : s.wait.entReq = true := by
  simp [State.entReq, hf]

section
variable {i : Instr} {k : Word → State → State} {s : State}

/-- With ENT_REQ raised and a word delivered, an entropy command completes with the word and consumes it (R96, log 7). -/
theorem exec_of_word (hi : ∀ s, exec i s = withEntropy s k) (hr : s.entReq = true) (hv : s.entValid = true) :
    exec i s = done (k s.entData { s with entValid := false }) := by
  simp [hi, withEntropy, hr, hv]

/-- From acceptance, with the facility usable and the word there, one turn requests the word and the next completes with it (R96, R98). -/
theorem execTimes_two_of_usable {f : InFlight} (hi : ∀ s, exec i s = withEntropy s k) (hf : s.inflight = some f) (hv : s.entValid = true)
    (hr : s.entReq = false) (hu : EntropyUsable s) :
    execTimes i 2 s = done (k s.entData { ({ s with entInit := true } : State).wait with entValid := false }) := by
  have hrequest := (hi s).trans (withEntropy_of_usable k hr hu)
  have hword := exec_of_word (s := ({ s with entInit := true } : State).wait) hi (State.wait_entReq hf) hv
  exact (execTimes_succ_of_next hrequest 1).trans (execTimes_succ_of_next hword 0)

end

end Sys2Proof.Machine
end

section
/-! SUPPORT. The statements about SplitMix64 (41_splitmix64.md) that are settled. -/

namespace Sys2Proof.Proofs

open Sys2Proof.Machine Sys2Proof.Safety

/-- Settles O42: each step of SM_MIX is injective on the finitely many words, and the outputs are the mixes of the states of R183. -/
theorem splitMixMixIsABijection : Obligations.SplitMixMixIsABijection := by
  refine ⟨fun k hk => bijective_of_injective (xorShiftRight_injective hk), bijective_of_injective fun _ _ => isUnit_mix1.mul_right_cancel,
    bijective_of_injective fun _ _ => isUnit_mix2.mul_right_cancel, bijective_of_injective smMix_injective, fun r m n hm hn h => ?_,
    fun r w => ?_, fun _ => smMix_eq_zero, fun s => ⟨smMix_eq_zero.trans smStep_fst_eq_zero, smStep_fst_eq_zero⟩,
    smStep_outputs_not_both_zero⟩
  · have hmod := (drawOutput_sm_eq_iff r m n).1 h
    rwa [Nat.mod_eq_of_lt hm, Nat.mod_eq_of_lt hn] at hmod
  · obtain ⟨i, hi⟩ := (drawOutput_sm_bijective r).surjective w
    exact ⟨i.toNat, i.isLt, hi⟩

/-- Settles O43: two states of the progression are equal exactly when their numbers agree modulo 2^64. -/
theorem splitMixPeriodIsTwoToThe64 : Obligations.SplitMixPeriodIsTwoToThe64 := by
  refine fun r => ⟨drawState_sm_smS r, fun a m n hm hn h => ?_, fun n => drawState_sm_smS_eq_iff r n 0⟩
  have hmod := (drawState_sm_smS_eq_iff r (a + m) (a + n)).1 h
  omega

/-- Settles O41: a draw is the step on SM_S, and the step's sum and products are those of naturals modulo 2^64. -/
theorem splitMixStepIsTheRulesArithmetic : Obligations.SplitMixStepIsTheRulesArithmetic :=
  ⟨draw64_sm, fun s => ⟨smStep_fst_toNat s, smStep_snd s, fun _ _ _ => smMix_of_toNat⟩⟩

/-- Settles O24: the turn that takes the word, and before it, for a command just accepted, the turn of the request. -/
theorem smSeedEntCompletesWithTheWord : Obligations.SmSeedEntCompletesWithTheWord :=
  fun _ _ hf hv => ⟨fun hr => exec_of_word exec_smSeedEnt hr hv, execTimes_two_of_usable exec_smSeedEnt hf hv⟩

/-- Settles O21: the operand is stored as it is, with no draw. -/
theorem smSeedSetsTheState : Obligations.SmSeedSetsTheState :=
  fun _ => rfl

end Sys2Proof.Proofs
end

section
/-! SUPPORT. The step of Xoroshiro128+ as wiring: each rotation is a rearrangement of bits, so the step is linear over GF(2), and it permutes
the pairs of state words (42_xoroshiro128plus.md R200 to R203). -/

namespace Sys2Proof.Machine

/-! ## Rotations -/

/-- Rotating left by `k` puts the low `n = 64 - k` bits above the high `k` bits (R10, R202). -/
theorem rotateLeft_eq_append {k n : Nat} (h : n + k = 64) (x : Word) :
    rotateLeft x k = (x.extractLsb' 0 n ++ x.extractLsb' n k).cast h := by
  obtain rfl : n = 64 - k := by omega
  ext j hj
  by_cases hjk : j < k
  · simp [rotateLeft, BitVec.getElem_append, hjk]
  · have hhigh : x.getLsbD (64 - k + j) = false := BitVec.getLsbD_of_ge x _ (by omega)
    have hlow : j - k < 64 := by omega
    simp [rotateLeft, BitVec.getElem_append, hjk, hhigh, BitVec.getLsbD_eq_getElem hlow]

/-- A rotation is linear over GF(2) (R203). -/
theorem rotateLeft_xor {k : Nat} (hk : k ≤ 64) (x y : Word) : rotateLeft (x ^^^ y) k = rotateLeft x k ^^^ rotateLeft y k := by
  have hsum : 64 - k + k = 64 := Nat.sub_add_cancel hk
  simp only [rotateLeft_eq_append hsum, BitVec.extractLsb'_xor, ← BitVec.xor_append]
  rfl

/-! ## One step -/

/-- A draw of Xoroshiro128+ is one step on XO_S1 and XO_S2 (R156). -/
theorem draw64_xo (r : GenRegs) :
    draw64 .xo r = ({ r with xoS1 := (xoStep r.xoS1 r.xoS2).1, xoS2 := (xoStep r.xoS1 r.xoS2).2.1 }, (xoStep r.xoS1 r.xoS2).2.2) := rfl

/-- The sum of R200 is that of naturals modulo 2^64. -/
theorem xoStep_output_toNat (a b : Word) : (xoStep a b).2.2.toNat = (a.toNat + b.toNat) % 2 ^ 64 := BitVec.toNat_add a b

theorem xoStep_fst (a b : Word) : (xoStep a b).1 = rotateLeft a 55 ^^^ (b ^^^ a) ^^^ ((b ^^^ a) <<< 14) := rfl

theorem xoStep_snd (a b : Word) : (xoStep a b).2.1 = rotateLeft (b ^^^ a) 36 := rfl

theorem xor_xor_xor_comm (a b c d : Word) : (a ^^^ b) ^^^ (c ^^^ d) = (a ^^^ c) ^^^ (b ^^^ d) := by ac_rfl

/-- Each state word of a step is linear over GF(2) (R203). -/
theorem xoStep_fst_xor (a b c d : Word) : (xoStep (a ^^^ c) (b ^^^ d)).1 = (xoStep a b).1 ^^^ (xoStep c d).1 := by
  rw [xoStep_fst, xoStep_fst, xoStep_fst, xor_xor_xor_comm b d a c, rotateLeft_xor (by decide), BitVec.shiftLeft_xor_distrib,
    xor_xor_xor_comm (rotateLeft a 55), xor_xor_xor_comm (rotateLeft a 55 ^^^ (b ^^^ a))]

theorem xoStep_snd_xor (a b c d : Word) : (xoStep (a ^^^ c) (b ^^^ d)).2.1 = (xoStep a b).2.1 ^^^ (xoStep c d).2.1 := by
  rw [xoStep_snd, xoStep_snd, xoStep_snd, xor_xor_xor_comm b d a c, rotateLeft_xor (by decide)]

/-- The state map of Xoroshiro128+ on the pair of its state words (R203). -/
def xoMap (p : Word × Word) : Word × Word := ((xoStep p.1 p.2).1, (xoStep p.1 p.2).2.1)

theorem xoMap_injective : Function.Injective xoMap := by
  rintro ⟨a, b⟩ ⟨a', b'⟩ h
  obtain ⟨hfst, hsnd⟩ := Prod.mk.inj h
  obtain ⟨rfl, rfl⟩ := draw64_xo_words_injective (r := ⟨0, a, b⟩) (r' := ⟨0, a', b'⟩) hfst hsnd
  rfl

/-- The pairs of words are finitely many, so a map that loses none of them reaches each of them. -/
theorem xoMap_bijective : Function.Bijective xoMap :=
  have : Finite Word := .of_injective _ BitVec.toFin_injective
  Finite.injective_iff_bijective.1 xoMap_injective

end Sys2Proof.Machine
end

section
/-! SUPPORT. The seeding commands of Xoroshiro128+ (42_xoroshiro128plus.md R204 to R208). -/

namespace Sys2Proof.Machine

open Sys2Proof.Safety

/-- XO_DISCARD is one step on the state words (R204). -/
theorem xoDiscard_eq (r : GenRegs) :
    xoDiscard r = { r with xoS1 := (xoStep r.xoS1 r.xoS2).1, xoS2 := (xoStep r.xoS1 r.xoS2).2.1 } := rfl

/-- Seeding takes the two outputs of SplitMix64 from the seed, in order, and discards one draw (R206). -/
theorem xoSeedRegs_eq (seed : Word) (r : GenRegs) :
    xoSeedRegs seed r = xoDiscard { r with xoS1 := smMix (seed + gamma), xoS2 := smMix (seed + gamma + gamma) } := by
  rw [← smStep_fst, ← smStep_fst, ← smStep_snd, ← smStep_snd]
  rfl

variable {s t : State} {i : Instr}

/-- What XO_SEED_ENT does with its word (R207). -/
theorem exec_xoSeedEnt (s : State) :
    exec .xoSeedEnt s = withEntropy s fun e s1 => { s1 with gens := xoSeedRegs e s1.gens, xoV := true } := rfl

theorem exec_xoSetstate_of_nonzero (h : ¬(s.a0 = 0 ∧ s.a1 = 0)) :
    exec .xoSetstate s = done { s with gens := xoDiscard { s.gens with xoS1 := s.a0, xoS2 := s.a1 }, xoV := true } :=
  if_neg h

theorem exec_xoSetstate_of_zero (h : s.a0 = 0 ∧ s.a1 = 0) : exec .xoSetstate s = raised .zeroState s :=
  if_pos h

/-- XO_SEED or XO_SEED_ENT that completes normally has seeded a nonzero state (R208). A command in flight that waits has not completed. -/
theorem ExecCase.xoNonzero_of_seeded (h : ExecCase s i t) (hi : i = .xoSeed ∨ i = .xoSeedEnt) (hbusy : s.inflight ≠ none)
    (hnone : t.inflight = none) (hok : t.err = .ok) : XoNonzero t.gens := by
  cases h with
  | xoSeed | xoSeedEnt => exact xoSeedRegs_nonzero _ _
  | wait => exact absurd hnone hbusy
  | request => exact absurd (by simpa using hnone) hbusy
  | nullGenerator | unseeded | fatal | unavailable => simp at hok
  | reject _ _ _ _ _ hs | sample _ _ _ _ _ _ hs => rcases hs with ⟨rfl, -⟩ | ⟨rfl, -⟩ <;> simp at hi
  | _ => simp at hi

end Sys2Proof.Machine
end

section
/-! SUPPORT. The statements about Xoroshiro128+ (42_xoroshiro128plus.md) that are settled. -/

namespace Sys2Proof.Proofs

open Sys2Proof.Machine Sys2Proof.Safety

/-- Settles O46: the state map is linear word by word, loses no pair of state words, and the zero state is its own image. -/
theorem xoroshiroNeverReachesTheZeroState : Obligations.XoroshiroNeverReachesTheZeroState :=
  ⟨by decide, xoMap_bijective, fun a b c d => ⟨xoStep_fst_xor a b c d, xoStep_snd_xor a b c d⟩, fun _ n h => drawState_nonzero .xo n h⟩

/-- Settles O47: two consecutive outputs of SplitMix64 are not both zero, the discard keeps that, and a command that completes has seeded so. -/
theorem seedingNeverProducesTheZeroState : Obligations.SeedingNeverProducesTheZeroState := by
  refine fun seed r => ⟨smStep_outputs_not_both_zero seed, xoSeedRegs_nonzero seed r, fun i s t f hi hf h hnone hok => ?_⟩
  exact (exec_cases h).xoNonzero_of_seeded hi (hf ▸ Option.some_ne_none f) hnone hok

/-- Settles O25: both commands seed by the same body, so the turn that takes the word ends as XO_SEED of it does. -/
theorem xoSeedEntIsXoSeedOfTheWord : Obligations.XoSeedEntIsXoSeedOfTheWord :=
  fun _ _ hf hv => ⟨_, rfl, rfl, rfl, rfl, fun hr => exec_of_word exec_xoSeedEnt hr hv, execTimes_two_of_usable exec_xoSeedEnt hf hv⟩

/-- Settles O26: the check for the zero state, and the discard as one step. -/
theorem xoSetstateSetsAndDiscards : Obligations.XoSetstateSetsAndDiscards := by
  refine fun s => ⟨fun h => ?_, exec_xoSetstate_of_zero⟩
  rw [exec_xoSetstate_of_nonzero h, xoDiscard_eq]
  rfl

/-- Settles O27: the seed's two outputs, and the discard as one step. -/
theorem xoSeedExpandsTheSeed : Obligations.XoSeedExpandsTheSeed := by
  rintro s _ _ rfl rfl
  rw [exec, execXoSeed, xoSeedRegs_eq, xoDiscard_eq]
  rfl

/-- Settles O44: a draw is the step on the state words, and the step's sum is that of naturals modulo 2^64. -/
theorem xoroshiroStepIsTheRulesArithmetic : Obligations.XoroshiroStepIsTheRulesArithmetic := by
  refine ⟨draw64_xo, ?_⟩
  rintro a b _ rfl
  exact ⟨xoStep_output_toNat a b, xoStep_fst a b, xoStep_snd a b⟩

/-- Settles O45: the two rotations of the step. -/
theorem rotationsAreRewirings : Obligations.RotationsAreRewirings :=
  fun a => ⟨rotateLeft_eq_append (n := 9) rfl a, rotateLeft_eq_append (n := 28) rfl a⟩

end Sys2Proof.Proofs
end

section
/-! SUPPORT. The end states of the bit-generator commands (43_bit_generator.md R220 to R222): NEXT64 once and many times in a row, NEXT32, and the
buffer that FILL leaves. -/

namespace Sys2Proof.Machine

open Sys2Proof.Safety

/-! ## Operand checks that fail -/

theorem exec_fill_of_too_long (gsel : GSel) {len : BitVec 16} (h : Config.fbufBytes < len.toNat) (s : State) :
    exec (.fill gsel len) s = raised .badLength s :=
  if_pos h

theorem exec_uiSamplerange_of_gt (gsel : GSel) {s : State} (h : (trunc32 s.a1).toInt < (trunc32 s.a0).toInt) :
    exec (.uiSamplerange gsel) s = raised .invalidRange s :=
  if_neg (by simp [leI32_eq_false.2 h])

/-! ## The draws of a fill, and the state after it -/

/-- A fill whose length is a multiple of 8 leaves the stream where the draws of the longer fill go on (R223). -/
theorem fillDraws_add {n1 : Nat} (h : n1 % 8 = 0) (n2 : Nat) : fillDraws n1 + fillDraws n2 = fillDraws (n1 + n2) := by
  unfold fillDraws
  omega

/-- A fill of whole words takes one draw for each (R224). -/
theorem fillDraws_eight_mul (m : Nat) : fillDraws (8 * m) = m := by
  unfold fillDraws
  omega

/-- The state after a FILL of `n` bytes that completes, drawing from `g` (R222). -/
def State.afterFill (g : Gen) (n : Nat) (s : State) : State :=
  { s with
    gens := drawState g s.gens (fillDraws n)
    fbuf := fillBuffer n (drawMany g (fillDraws n) s.gens).1 s.fbuf
    err := .ok
    inflight := none }

@[simp] theorem State.afterFill_gens (g : Gen) (n : Nat) (s : State) :
    (s.afterFill g n).gens = drawState g s.gens (fillDraws n) := rfl

/-! ## Commands that complete -/

/-- The low half of a word, zero-extended, is the word modulo 2^32 (R11). -/
theorem zext64_trunc32_toNat (w : Word) : (zext64 (trunc32 w)).toNat = w.toNat % 2 ^ 32 := by
  have hlt : w.toNat % 2 ^ 32 < 2 ^ 64 := by omega
  rw [zext64, trunc32, BitVec.toNat_setWidth, BitVec.toNat_setWidth, Nat.mod_eq_of_lt hlt]

section
variable {gsel : GSel} {g : Gen} {s : State}

theorem exec_next64_of_seeded (hg : gselTarget gsel none = some g) (hs : s.seeded g = true) :
    exec (.next64 gsel) s = .next { s with gens := (draw64 g s.gens).1, res := (draw64 g s.gens).2, err := .ok, inflight := none } :=
  withGen_of_seeded _ hg hs

theorem exec_next32_of_seeded (hg : gselTarget gsel none = some g) (hs : s.seeded g = true) :
    exec (.next32 gsel) s = .next { s with
      gens := (draw64 g s.gens).1, res := zext64 (trunc32 (draw64 g s.gens).2), err := .ok, inflight := none } :=
  withGen_of_seeded _ hg hs

theorem exec_fill_of_seeded {len : BitVec 16} (hg : gselTarget gsel none = some g) (hs : s.seeded g = true)
    (hlen : len.toNat ≤ 256) : exec (.fill gsel len) s = .next (s.afterFill g len.toNat) := by
  have hgens := drawMany_snd g (fillDraws len.toNat) s.gens
  rw [State.afterFill, ← hgens]
  exact (if_neg (Nat.not_lt.2 hlen)).trans (withGen_of_seeded _ hg hs)

/-- FILL with its length given as a number. -/
theorem exec_fill_ofNat {n : Nat} (hg : gselTarget gsel none = some g) (hs : s.seeded g = true) (hn : n ≤ 256) :
    exec (.fill gsel (BitVec.ofNat 16 n)) s = .next (s.afterFill g n) := by
  have hlen : (BitVec.ofNat 16 n).toNat = n := by
    rw [BitVec.toNat_ofNat, Nat.mod_eq_of_lt (by omega)]
  rw [exec_fill_of_seeded hg hs (hlen.trans_le hn), hlen]

/-- NEXT64 commands in a row take the draws of one stream, and RES holds the output of the last (R157, R220). -/
theorem execTimes_next64_succ (hg : gselTarget gsel none = some g) (m : Nat) (hs : s.seeded g = true) :
    execTimes (.next64 gsel) (m + 1) s = .next { s with
      gens := drawState g s.gens (m + 1), res := drawOutput g s.gens m, err := .ok, inflight := none } := by
  induction m generalizing s with
  | zero => exact execTimes_succ_of_next (exec_next64_of_seeded hg hs) 0
  | succ m ih =>
    refine (execTimes_succ_of_next (exec_next64_of_seeded hg hs) _).trans ((ih ?_).trans ?_)
    · exact hs
    · rw [drawState_draw64, drawOutput_draw64]

/-- Any number of NEXT64 commands advances the generator by as many draws (R224). -/
theorem execTimes_next64_gens (hg : gselTarget gsel none = some g) (hs : s.seeded g = true) (m : Nat) :
    ∃ u, execTimes (.next64 gsel) m s = .next u ∧ u.gens = drawState g s.gens m := by
  cases m with
  | zero => exact ⟨s, rfl, rfl⟩
  | succ m => exact ⟨_, execTimes_next64_succ hg m hs, rfl⟩

end

/-! ## The buffer after a fill -/

section
variable (g : Gen) (s : State) {n : Nat} {i : Fin 256}

/-- A byte below the length is a byte of a draw, low byte first (R222). -/
theorem afterFill_fbufByte_of_lt (h : i.val < n) :
    (s.afterFill g n).fbufByte i = byteOf (drawOutput g s.gens (i.val / 8)) (i.val % 8) := by
  have hdraw : i.val / 8 < fillDraws n := by unfold fillDraws; omega
  rw [State.fbufByte, State.afterFill, fillBuffer_getElem, if_pos h, drawMany_getD g _ _ _ hdraw]

/-- A byte from the length on keeps its contents (R222). -/
theorem afterFill_fbufByte_of_le (h : n ≤ i.val) : (s.afterFill g n).fbufByte i = s.fbufByte i := by
  rw [State.fbufByte, State.afterFill, fillBuffer_getElem, if_neg (Nat.not_lt.2 h), State.fbufByte]

/-- A word of the buffer that lies below the length is a whole draw (R81, R224). -/
theorem afterFill_fbufWord {j : Fin 32} (h : 8 * j.val + 8 ≤ n) : (s.afterFill g n).fbufWord j = drawOutput g s.gens j.val := by
  refine eq_of_byteOf_eq fun k hk => ?_
  have hbelow : 8 * j.val + k < n := by omega
  have hdiv : (8 * j.val + k) / 8 = j.val := by omega
  have hmod : (8 * j.val + k) % 8 = k := by omega
  rw [byteOf_fbufWord _ j hk (i := ⟨8 * j.val + k, by omega⟩) rfl, afterFill_fbufByte_of_lt g s hbelow, hdiv, hmod]

end

end Sys2Proof.Machine
end

section
/-! SUPPORT. The statements about the bit-generator commands (43_bit_generator.md) that are settled. -/

namespace Sys2Proof.Proofs

open Sys2Proof.Machine Sys2Proof.Safety

/-- Settles O29: the buffer's bytes below the length are those of the draws, and the others are kept. -/
theorem fillWritesTheDrawsLittleEndian : Obligations.FillWritesTheDrawsLittleEndian := by
  intro gsel g n s hg hs hn
  refine ⟨_, exec_fill_of_seeded hg hs hn, rfl, fun i hi => ?_, fun i hi => afterFill_fbufByte_of_le g s hi⟩
  rw [afterFill_fbufByte_of_lt g s hi, byteOf_toNat]

/-- Settles O30: FILL and the NEXT64 commands take the same draws, and each word of the buffer is one of them. -/
theorem fillOfWholeWordsEqualsNext64s : Obligations.FillOfWholeWordsEqualsNext64s := by
  intro gsel g m s hg hs hm
  obtain ⟨u, hu, hgens⟩ := execTimes_next64_gens hg hs m
  refine ⟨_, u, exec_fill_ofNat hg hs (by omega), hu, ?_, fun j hj => ⟨_, execTimes_next64_succ hg j.val hs, ?_⟩⟩
  · rw [hgens, State.afterFill_gens, fillDraws_eight_mul]
  · exact afterFill_fbufWord g s (by omega)

/-- Settles O31: the second FILL goes on with the stream at the word boundary where the first has stopped. -/
theorem splitFillAtAWordBoundary : Obligations.SplitFillAtAWordBoundary := by
  intro gsel g n1 n2 s hg hs hn1 hn
  refine ⟨_, _, _, exec_fill_ofNat hg hs (by omega), exec_fill_ofNat hg (s := s.afterFill g n1) hs (by omega), exec_fill_ofNat hg hs hn,
    ?_, fun i hi => ?_, fun i j hj hij => ?_⟩
  · simp only [State.afterFill_gens, drawState_drawState, fillDraws_add hn1]
  · rw [afterFill_fbufByte_of_lt g s hi, afterFill_fbufByte_of_lt g s (by omega)]
  · have hdiv : i.val / 8 = fillDraws n1 + j.val / 8 := by unfold fillDraws; omega
    have hmod : i.val % 8 = j.val % 8 := by omega
    rw [afterFill_fbufByte_of_lt g s (by omega), afterFill_fbufByte_of_lt g _ hj, hdiv, hmod, State.afterFill_gens,
      drawOutput_drawState]

/-- Settles O28: one draw, and for NEXT32 its low half. -/
theorem next64AndNext32TakeOneDraw : Obligations.Next64AndNext32TakeOneDraw :=
  fun _ _ _ hg hs => ⟨exec_next64_of_seeded hg hs, _, exec_next32_of_seeded hg hs, rfl, zext64_trunc32_toNat _⟩

/-- Settles O40: each check of an operand is the command's first. -/
theorem operandChecksComeFirst : Obligations.OperandChecksComeFirst :=
  fun gsel _ s => ⟨fun h => exec_fill_of_too_long gsel h s, exec_uiSamplerange_of_gt gsel⟩

end Sys2Proof.Proofs
end

section
/-! SUPPORT. The arithmetic of the integer mapper (44_uniform_int.md R243 to R247, R251, R252): the range of ordered bounds, span, bucketCount and limit as
naturals, and what one draw gives. -/

namespace Sys2Proof.Machine

/-! ## The range of ordered bounds (R243) -/

section
variable {lb ub : Half} (hle : lb.toInt ≤ ub.toInt)
include hle

theorem uiRange_toNat : ((uiRange lb ub).toNat : Int) = ub.toInt - lb.toInt := by
  have hlb := lb.isLt
  have hub := ub.isLt
  simp only [BitVec.toInt_eq_toNat_cond] at hle ⊢
  rw [uiRange, BitVec.toNat_sub]
  omega

/-- Adding an offset within the range to the lower bound does not overflow (R246). -/
theorem add_lb_toInt {d : Half} (hd : d.toNat ≤ (uiRange lb ub).toNat) : (d + lb).toInt = lb.toInt + d.toNat := by
  have hrange := uiRange_toNat hle
  have hlow := lb.le_toInt
  have hhigh := ub.toInt_le
  rw [BitVec.toInt_add, BitVec.toInt_eq_toNat_bmod d, Int.bmod_add_bmod]
  rw [Int.bmod_eq_of_le] <;> omega

end

theorem eq_fullRange_iff {range : Half} : range = fullRange ↔ range.toNat = 2 ^ 32 - 1 :=
  BitVec.toNat_inj.symm

/-! ## span, bucketCount and limit (R244) -/

section
variable (range : Half)

theorem uiSpan_toNat : (uiSpan range).toNat = range.toNat + 1 := by
  have hrange := range.isLt
  rw [uiSpan, zext64, BitVec.toNat_add, BitVec.toNat_setWidth_of_le (by decide)]
  exact Nat.mod_eq_of_lt (Nat.lt_of_le_of_lt (Nat.succ_le_of_lt hrange) (by decide))

theorem uiBucketCount_toNat : (uiBucketCount range).toNat = (2 ^ 64 - 1) / (range.toNat + 1) := by
  rw [uiBucketCount, BitVec.toNat_udiv, uiSpan_toNat]
  rfl

theorem uiBucketCount_pos : 0 < (uiBucketCount range).toNat := by
  have hrange := range.isLt
  rw [uiBucketCount_toNat]
  exact Nat.div_pos (by omega) range.toNat.succ_pos

/-- The product of R244 does not overflow: it is at most the dividend of bucketCount. -/
theorem uiLimit_toNat : (uiLimit range).toNat = (uiBucketCount range).toNat * (uiSpan range).toNat := by
  refine BitVec.toNat_mul_of_lt ?_
  have hle := Nat.div_mul_le_self (2 ^ 64 - 1) (range.toNat + 1)
  rw [uiBucketCount_toNat, uiSpan_toNat]
  omega

/-- What lies above the limit is the remainder of the division, and the draw 2^64 - 1 itself (R252). -/
theorem two_pow_sub_uiLimit : 2 ^ 64 - (uiLimit range).toNat = (2 ^ 64 - 1) % (range.toNat + 1) + 1 := by
  have hdivision := Nat.div_add_mod' (2 ^ 64 - 1) (range.toNat + 1)
  rw [uiLimit_toNat, uiBucketCount_toNat, uiSpan_toNat]
  omega

theorem two_pow_sub_uiLimit_le : 2 ^ 64 - (uiLimit range).toNat ≤ range.toNat + 1 := by
  rw [two_pow_sub_uiLimit]
  exact Nat.mod_lt _ range.toNat.succ_pos

theorem two_pow_sub_uiLimit_pos : 1 ≤ 2 ^ 64 - (uiLimit range).toNat := by
  rw [two_pow_sub_uiLimit]
  exact Nat.le_add_left 1 _

end

/-! ## One draw (R245 to R247) -/

section
variable {lb ub : Half} {w : Word}

/-- A draw is rejected exactly when the range is not the full one and the draw is not below the limit (R245, R247). -/
theorem uiAccept_eq_none : uiAccept lb ub w = none ↔ uiRange lb ub ≠ fullRange ∧ (uiLimit (uiRange lb ub)).toNat ≤ w.toNat := by
  by_cases hfull : uiRange lb ub = fullRange
  · simp [uiAccept, hfull]
  · simp [uiAccept, hfull, BitVec.lt_def]

theorem lt_uiLimit_of_uiAccept {v : Half} (hpartial : uiRange lb ub ≠ fullRange) (hv : uiAccept lb ub w = some v) :
    w.toNat < (uiLimit (uiRange lb ub)).toNat := by
  by_contra hnot
  simp [uiAccept_eq_none.2 ⟨hpartial, Nat.le_of_not_lt hnot⟩] at hv

variable (hle : lb.toInt ≤ ub.toInt)
include hle

/-- The full range takes the low half of any draw as the offset (R247). -/
theorem uiAccept_of_fullRange (hfull : uiRange lb ub = fullRange) :
    ∃ v, uiAccept lb ub w = some v ∧ v.toInt = lb.toInt + (w.toNat % 2 ^ 32 : Nat) := by
  refine ⟨trunc32 w + lb, if_pos hfull, add_lb_toInt hle ?_⟩
  rw [eq_fullRange_iff.1 hfull]
  exact Nat.le_pred_of_lt (trunc32 w).isLt

/-- A draw below the limit gives the number of its bucket as the offset (R246). -/
theorem uiAccept_of_lt (hpartial : uiRange lb ub ≠ fullRange) (hw : w.toNat < (uiLimit (uiRange lb ub)).toNat) :
    ∃ v, uiAccept lb ub w = some v ∧ v.toInt = lb.toInt + (w.toNat / (uiBucketCount (uiRange lb ub)).toNat : Nat) ∧
      w.toNat / (uiBucketCount (uiRange lb ub)).toNat ≤ (uiRange lb ub).toNat := by
  have hbucket : w.toNat / (uiBucketCount (uiRange lb ub)).toNat < (uiRange lb ub).toNat + 1 := by
    rw [← uiSpan_toNat]
    exact Nat.div_lt_of_lt_mul (uiLimit_toNat _ ▸ hw)
  have hoffset : (trunc32 (w / uiBucketCount (uiRange lb ub))).toNat = w.toNat / (uiBucketCount (uiRange lb ub)).toNat := by
    have hrange := (uiRange lb ub).isLt
    rw [trunc32, BitVec.toNat_setWidth, BitVec.toNat_udiv]
    exact Nat.mod_eq_of_lt (by omega)
  refine ⟨trunc32 (w / uiBucketCount (uiRange lb ub)) + lb, (if_neg hpartial).trans (if_pos hw), ?_, Nat.le_of_lt_succ hbucket⟩
  rw [add_lb_toInt hle (by omega), hoffset]

/-- Every result lies between the bounds (R246, R247). -/
theorem uiAccept_bounds {v : Half} (hv : uiAccept lb ub w = some v) : lb.toInt ≤ v.toInt ∧ v.toInt ≤ ub.toInt := by
  have hrange := uiRange_toNat hle
  by_cases hfull : uiRange lb ub = fullRange
  · obtain ⟨v', hv', hoffset⟩ := uiAccept_of_fullRange (w := w) hle hfull
    obtain rfl : v = v' := Option.some.inj (hv.symm.trans hv')
    have hsize := eq_fullRange_iff.1 hfull
    omega
  · obtain ⟨v', hv', hoffset, hsize⟩ := uiAccept_of_lt hle hfull (lt_uiLimit_of_uiAccept hfull hv)
    obtain rfl : v = v' := Option.some.inj (hv.symm.trans hv')
    generalize w.toNat / _ = q at hoffset hsize
    omega

/-- A draw gives the offset `q` exactly when it lies in the `q`-th bucket (R246, R251). -/
theorem uiAccept_offset_iff (hpartial : uiRange lb ub ≠ fullRange) {q : Nat} (hq : q < (uiSpan (uiRange lb ub)).toNat) :
    (∃ v, uiAccept lb ub w = some v ∧ v.toInt = lb.toInt + q) ↔
      q * (uiBucketCount (uiRange lb ub)).toNat ≤ w.toNat ∧ w.toNat < (q + 1) * (uiBucketCount (uiRange lb ub)).toNat := by
  have hpos := uiBucketCount_pos (uiRange lb ub)
  rw [← Nat.le_div_iff_mul_le hpos, ← Nat.div_lt_iff_lt_mul hpos]
  constructor
  · rintro ⟨v, hv, hq⟩
    obtain ⟨v', hv', hoffset, -⟩ := uiAccept_of_lt hle hpartial (lt_uiLimit_of_uiAccept hpartial hv)
    obtain rfl : v = v' := Option.some.inj (hv.symm.trans hv')
    omega
  · rintro ⟨hlow, hhigh⟩
    have hw : w.toNat < (uiLimit (uiRange lb ub)).toNat := by
      rw [uiLimit_toNat, mul_comm, ← Nat.div_lt_iff_lt_mul hpos]
      omega
    obtain ⟨v, hv, hoffset, -⟩ := uiAccept_of_lt hle hpartial hw
    exact ⟨v, hv, by omega⟩

end

/-! ## How many draws are rejected (R252) -/

/-- The words that are not below a given one. -/
theorem card_le_toNat (x : Word) : Nat.card { w : Word // x.toNat ≤ w.toNat } = 2 ^ 64 - x.toNat := by
  let e := BitVec.equivFin (m := 64).toEquiv.subtypeEquiv (p := fun w : Word => x.toNat ≤ w.toNat) (q := (x.toFin ≤ ·)) fun _ => Iff.rfl
  calc Nat.card { w : Word // x.toNat ≤ w.toNat } = Nat.card { i // x.toFin ≤ i } := Nat.card_congr e
    _ = (Finset.Ici x.toFin).card := Nat.subtype_card _ fun _ => Finset.mem_Ici
    _ = 2 ^ 64 - x.toNat := Fin.card_Ici _

theorem card_rejected {lb ub : Half} (hpartial : uiRange lb ub ≠ fullRange) :
    Nat.card { w : Word // uiAccept lb ub w = none } = 2 ^ 64 - (uiLimit (uiRange lb ub)).toNat := by
  simp only [uiAccept_eq_none, ne_eq, hpartial, not_false_eq_true, true_and]
  exact card_le_toNat _

end Sys2Proof.Machine
end

section
/-! SUPPORT. The sampling commands of the integer mapper, one turn for each draw (44_uniform_int.md R245, R248, R249, R253; log 3). -/

namespace Sys2Proof.Machine

open Sys2Proof.Safety

/-! ## One turn -/

section
variable {lb ub : Half} {g : Gen} {s : State}

theorem uiMapTurn_of_accepted {v : Half} (h : uiAccept lb ub (draw64 g (s.workGens g)).2 = some v) :
    uiMapTurn lb ub g s = done { s with gens := (draw64 g (s.workGens g)).1, res := sext64 v } := by
  simp only [uiMapTurn, h]

theorem uiMapTurn_of_rejected (h : uiAccept lb ub (draw64 g (s.workGens g)).2 = none) :
    uiMapTurn lb ub g s = .next (s.reject (draw64 g (s.workGens g)).1) := by
  simp only [uiMapTurn, h]

end

/-! ## The state after rejected draws -/

/-- The state after `n` rejected draws of the generator `g`: nothing but the in-flight record has changed (R54, R245). -/
def State.rejects (g : Gen) (n : Nat) (s : State) : State :=
  { s with
    inflight := s.inflight.map fun f =>
      { f with draws := f.draws + n, pending := if n = 0 then f.pending else some (drawState g (s.workGens g) n) } }

@[simp] theorem State.rejects_zero (g : Gen) (s : State) : s.rejects g 0 = s := by
  simp [State.rejects]

theorem State.rejects_succ (g : Gen) (n : Nat) (s : State) :
    s.rejects g (n + 1) = (s.rejects g n).reject (drawState g (s.workGens g) (n + 1)) := by
  simp [State.rejects, State.reject, Function.comp_def, Nat.add_assoc]

theorem State.rejects_of_inflight {g : Gen} {s : State} {f : InFlight} (hf : s.inflight = some f) (n : Nat) :
    s.rejects g (n + 1) =
      { s with inflight := some { f with draws := f.draws + (n + 1), pending := some (drawState g (s.workGens g) (n + 1)) } } := by
  simp [State.rejects, hf]

@[simp] theorem State.rejects_a0 (g : Gen) (n : Nat) (s : State) : (s.rejects g n).a0 = s.a0 := by
  unfold State.a0 State.rejects
  cases s.inflight <;> rfl

@[simp] theorem State.rejects_a1 (g : Gen) (n : Nat) (s : State) : (s.rejects g n).a1 = s.a1 := by
  unfold State.a1 State.rejects
  cases s.inflight <;> rfl

/-- A stream from a state whose other words are the registers' keeps those words (R220). -/
theorem withWords_drawState_workGens (g : Gen) (n : Nat) (s : State) :
    (drawState g (s.workGens g) n).withWords g s.gens = drawState g (s.workGens g) n := by
  cases g with
  | sm =>
    obtain ⟨h1, h2⟩ := drawState_sm_xoWords (s.workGens .sm) n
    rw [State.workGens_sm_xoS1] at h1
    rw [State.workGens_sm_xoS2] at h2
    rw [GenRegs.withWords, ← h1, ← h2]
  | xo =>
    have h := drawState_xo_smS (s.workGens .xo) n
    rw [State.workGens_xo_smS] at h
    rw [GenRegs.withWords, ← h]

/-- The next draw goes on where the rejected ones ended (R157). -/
theorem State.rejects_workGens {g : Gen} {s : State} {f : InFlight} (hf : s.inflight = some f) (n : Nat) :
    (s.rejects g n).workGens g = drawState g (s.workGens g) n := by
  cases n with
  | zero => simp
  | succ n =>
    rw [State.rejects_of_inflight hf]
    exact withWords_drawState_workGens g (n + 1) s

/-! ## A sampling command in flight -/

/-- A sampling command between the bounds `lb` and `ub` is in flight, draws from the seeded generator `g`, and the engine's turn is next. -/
structure SamplingInFlight (g : Gen) (lb ub : Half) (s : State) : Prop where
  queue : s.inputs = []
  command : ∃ f i gsel, s.inflight = some f ∧ decode f.word = .ok i ∧ Samples i s gsel lb ub ∧ gselTarget gsel s.uiDef = some g
  ordered : lb.toInt ≤ ub.toInt
  seeded : s.seeded g = true

namespace SamplingInFlight

variable {g : Gen} {lb ub : Half} {s : State}

theorem step_eq (h : SamplingInFlight g lb ub s) : step s = uiMapTurn lb ub g s := by
  obtain ⟨f, i, gsel, hf, hd, hi, hg⟩ := h.command
  simp only [step, h.queue]
  rw [engineTurn_of_decoded hf hd, exec_of_samples hi h.ordered hg h.seeded]

theorem rejects (h : SamplingInFlight g lb ub s) (n : Nat) : SamplingInFlight g lb ub (s.rejects g n) := by
  obtain ⟨f, i, gsel, hf, hd, hi, hg⟩ := h.command
  refine ⟨h.queue, ⟨_, i, gsel, congrArg (Option.map _) hf, hd, ?_, hg⟩, h.ordered, ?_⟩
  · rwa [Samples, State.rejects_a0, State.rejects_a1]
  · exact h.seeded

/-- The turn after `n` rejected draws takes draw number `n` of the stream. -/
theorem draw_after_rejects (h : SamplingInFlight g lb ub s) (n : Nat) :
    (draw64 g ((s.rejects g n).workGens g)).2 = drawOutput g (s.workGens g) n ∧
      (draw64 g ((s.rejects g n).workGens g)).1 = drawState g (s.workGens g) (n + 1) := by
  obtain ⟨f, -, -, hf, -⟩ := h.command
  rw [State.rejects_workGens hf]
  exact ⟨rfl, rfl⟩

/-- Each rejected draw takes one turn (R245). -/
theorem run_rejects (h : SamplingInFlight g lb ub s) {n : Nat} (hrej : ∀ j, j < n → uiAccept lb ub (drawOutput g (s.workGens g) j) = none) :
    core.run n s = .next (s.rejects g n) := by
  induction n with
  | zero =>
    rw [State.rejects_zero]
    rfl
  | succ n ih =>
    obtain ⟨houtput, hstate⟩ := h.draw_after_rejects n
    have hstep : step (s.rejects g n) = .next (s.rejects g (n + 1)) := by
      rw [(h.rejects n).step_eq, uiMapTurn_of_rejected (houtput ▸ hrej n n.lt_succ_self), hstate, State.rejects_succ]
    calc core.run (n + 1) s = core.run 1 (s.rejects g n) := run_add (ih fun j hj => hrej j (hj.trans n.lt_succ_self)) 1
      _ = .next (s.rejects g (n + 1)) := run_of_step hstep 0

/-- The first draw that is accepted completes the command (R245, R248). -/
theorem run_completes (h : SamplingInFlight g lb ub s) {k : Nat} {v : Half}
    (hrej : ∀ j, j < k → uiAccept lb ub (drawOutput g (s.workGens g) j) = none) (hv : uiAccept lb ub (drawOutput g (s.workGens g) k) = some v) :
    core.run (k + 1) s =
      .next { s with gens := drawState g (s.workGens g) (k + 1), res := sext64 v, err := .ok, inflight := none } := by
  obtain ⟨houtput, hstate⟩ := h.draw_after_rejects k
  rw [← houtput] at hv
  have hstep := (h.rejects k).step_eq.trans (uiMapTurn_of_accepted hv)
  rw [hstate] at hstep
  exact (run_add (h.run_rejects hrej) 1).trans (run_of_step hstep 0)

end SamplingInFlight

/-! ## Termination with SplitMix64 (R253) -/

/-- The outputs of SplitMix64 are different words, so no more of them can be rejected in a row than words are (R184, R253). -/
theorem le_card_rejected_sm {lb ub : Half} {r : GenRegs} {n : Nat} (hn : n ≤ 2 ^ 64)
    (hrej : ∀ j, j < n → uiAccept lb ub (drawOutput .sm r j) = none) : n ≤ Nat.card { w : Word // uiAccept lb ub w = none } := by
  have hinj : Function.Injective fun j : Fin n =>
      (⟨drawOutput .sm r j, hrej j j.isLt⟩ : { w : Word // uiAccept lb ub w = none }) := by
    intro i j hij
    have hmod := (drawOutput_sm_eq_iff r i j).1 (congrArg Subtype.val hij)
    exact Fin.ext (by omega)
  have : Finite Word := .of_injective _ BitVec.toFin_injective
  exact Nat.card_fin n ▸ Nat.card_le_card_of_injective _ hinj

theorem exists_accepted_sm (lb ub : Half) (r : GenRegs) :
    ∃ j, j ≤ 2 ^ 64 - (uiLimit (uiRange lb ub)).toNat ∧ uiAccept lb ub (drawOutput .sm r j) ≠ none := by
  by_contra! hnone
  obtain ⟨hpartial, -⟩ := uiAccept_eq_none.1 (hnone 0 (Nat.zero_le _))
  have hsmall := two_pow_sub_uiLimit_le (uiRange lb ub)
  have hrange := (uiRange lb ub).isLt
  have hcount := le_card_rejected_sm (n := 2 ^ 64 - (uiLimit (uiRange lb ub)).toNat + 1) (by omega)
    fun j hj => hnone j (Nat.le_of_lt_succ hj)
  rw [card_rejected hpartial] at hcount
  omega

/-- Among the draws there is a first that is accepted. -/
theorem exists_first_accepted_sm (lb ub : Half) (r : GenRegs) :
    ∃ k v, k ≤ 2 ^ 64 - (uiLimit (uiRange lb ub)).toNat ∧ (∀ j, j < k → uiAccept lb ub (drawOutput .sm r j) = none) ∧
      uiAccept lb ub (drawOutput .sm r k) = some v := by
  obtain ⟨j, hj, haccepted⟩ := exists_accepted_sm lb ub r
  have hex : ∃ k, uiAccept lb ub (drawOutput .sm r k) ≠ none := ⟨j, haccepted⟩
  obtain ⟨v, hv⟩ := Option.ne_none_iff_exists'.1 (Nat.find_spec hex)
  exact ⟨Nat.find hex, v, (Nat.find_min' hex haccepted).trans hj, fun i hi => not_not.1 (Nat.find_min hex hi), hv⟩

end Sys2Proof.Machine
end

section
/-! SUPPORT. The commands that set a bound or a default (44_uniform_int.md R240 to R242; 45_uniform_double.md R273), and CFG as arithmetic (10_state.md R50). -/

namespace Sys2Proof.Machine

section
variable {s : State}

theorem exec_uiSetlb_of_gt (h : s.ub.toInt < (trunc32 s.a0).toInt) : exec .uiSetlb s = raised .invalidRange s :=
  if_neg (by simp [leI32_eq_false.2 h])

theorem exec_uiSetub_of_lt (h : (trunc32 s.a0).toInt < s.lb.toInt) : exec .uiSetub s = raised .invalidRange s :=
  if_neg (by simp [leI32_eq_false.2 h])

end

/-- A stored default has the encoding of the GSEL value it came from (R39, R114). -/
theorem defCode_gselStored (gsel : GSel) : defCode (gselStored gsel) = gsel.bits := by
  cases gsel <;> rfl

/-- The two defaults in CFG as arithmetic (R50). -/
theorem cfgWord_uiDef_toNat (s : State) : s.cfgWord.toNat % 4 = (defCode s.uiDef).toNat := by
  rw [← (cfgWord_defaults s).1, BitVec.extractLsb'_toNat]
  rfl

theorem cfgWord_udDef_toNat (s : State) : s.cfgWord.toNat / 4 % 4 = (defCode s.udDef).toNat := by
  rw [← (cfgWord_defaults s).2, BitVec.extractLsb'_toNat, Nat.shiftRight_eq_div_pow]

end Sys2Proof.Machine
end

section
/-! SUPPORT. The statements about the integer mapper and its commands (44_uniform_int.md) that are settled. -/

namespace Sys2Proof.Proofs

open Sys2Proof.Machine Sys2Proof.Safety

/-- Settles O36: the rejected draws change only the in-flight record, and the turn after them takes the next draw of the stream. -/
theorem integerSampleTakesTheFirstAcceptedDraw : Obligations.IntegerSampleTakesTheFirstAcceptedDraw := by
  intro i gsel g lb ub v k s f hin hf hp hd hi hle hg hs hrej hv
  have hsampling : SamplingInFlight g lb ub s := ⟨hin, ⟨f, i, gsel, hf, hd, hi, hg⟩, hle, hs⟩
  have hwork : s.workGens g = s.gens := State.workGens_of_pending g (by simp [hf, hp])
  rw [← hwork] at hrej hv
  have hrun := hsampling.run_completes hrej hv
  rw [hwork] at hrun
  refine ⟨fun j hj => ?_, hrun⟩
  rw [hsampling.run_rejects fun m hm => hrej m (by omega), State.rejects_of_inflight hf, hwork]

/-- Settles O37: no more draws can be rejected in a row than words are, and the first that is accepted completes the command. -/
theorem splitMixSamplingTerminates : Obligations.SplitMixSamplingTerminates := by
  intro i gsel lb ub s f hin hf hp hd hi hle hg hs
  have hsampling : SamplingInFlight .sm lb ub s := ⟨hin, ⟨f, i, gsel, hf, hd, hi, hg⟩, hle, hs⟩
  have hwork : s.workGens .sm = s.gens := State.workGens_of_pending .sm (by simp [hf, hp])
  obtain ⟨k, v, hk, hrej, hv⟩ := exists_first_accepted_sm lb ub (s.workGens .sm)
  have hrun := hsampling.run_completes hrej hv
  obtain ⟨hlow, hhigh⟩ := uiAccept_bounds hle hv
  have hcount := two_pow_sub_uiLimit (uiRange lb ub)
  have hspan := two_pow_sub_uiLimit_le (uiRange lb ub)
  rw [hwork] at hrun
  rw [uiSpan_toNat]
  exact ⟨k + 1, v, _, by omega, by omega, hrun, hlow, hhigh, rfl⟩

/-- Settles O49: span is at most 2^32 - 1, so the division of R244 leaves at least 2^32 + 1, and the product is at most its dividend. -/
theorem spanBucketCountAndLimit : Obligations.SpanBucketCountAndLimit := by
  intro range hpartial
  have hrange : range.toNat + 1 ≤ 2 ^ 32 - 1 := by
    have hsize := mt eq_fullRange_iff.2 hpartial
    have hlt := range.isLt
    omega
  have hbucket : 2 ^ 32 + 1 ≤ (uiBucketCount range).toNat := by
    rw [uiBucketCount_toNat, Nat.le_div_iff_mul_le range.toNat.succ_pos]
    omega
  refine ⟨uiSpan_toNat range, (uiSpan_toNat range).trans_le hrange, uiBucketCount_toNat range, hbucket, ?_⟩
  rw [uiLimit_toNat, uiBucketCount_toNat, uiSpan_toNat]

/-- Settles O50: an accepted draw adds to `lb` an offset within the range: its low half, or the number of its bucket. -/
theorem everyResultHasItsBucketOfDraws : Obligations.EveryResultHasItsBucketOfDraws := by
  intro lb ub w hle
  refine ⟨fun v => uiAccept_bounds hle, uiAccept_of_fullRange hle, fun hpartial => ⟨?_, fun q hq => ?_⟩⟩
  · rw [uiAccept_eq_none, and_iff_right hpartial]
  · exact uiAccept_offset_iff hle hpartial hq

/-- Settles O51: the rejected draws are the words that are not below the limit. -/
theorem rejectionCount : Obligations.RejectionCount :=
  ⟨fun _ _ _ => card_rejected, fun range _ => ⟨two_pow_sub_uiLimit range, two_pow_sub_uiLimit_pos range, two_pow_sub_uiLimit_le range⟩,
    by decide, by decide, by decide, by decide, by decide, by decide⟩

/-- Settles O48: the difference is 2^32 - 1 only when each bound is at its own extreme. -/
theorem rangeIsTheExactDifference : Obligations.RangeIsTheExactDifference := by
  intro lb ub hle
  have hrange := uiRange_toNat hle
  have hlow := lb.le_toInt
  have hhigh := ub.toInt_le
  refine ⟨hrange, ?_⟩
  rw [eq_fullRange_iff]
  omega

/-- Settles O32: both commands on both sides of the comparison. -/
theorem setBoundsCheckTheOrder : Obligations.SetBoundsCheckTheOrder := by
  rintro s _ rfl
  exact ⟨exec_uiSetlb_of_le, exec_uiSetlb_of_gt, exec_uiSetub_of_le, exec_uiSetub_of_lt⟩

/-- Settles O34: each default is stored as its GSEL value, which its own two bits of CFG show. -/
theorem setdefStoresTheDefault : Obligations.SetdefStoresTheDefault := by
  intro gsel s
  have hshown := congrArg BitVec.toNat (defCode_gselStored gsel)
  exact ⟨_, _, rfl, rfl, rfl, rfl, rfl, rfl, (cfgWord_uiDef_toNat _).trans hshown, (cfgWord_udDef_toNat _).trans hshown⟩

/-- Settles O35: the command is one turn of the mapper, on an accepted and on a rejected draw. -/
theorem integerSampleTakesOneDrawATurn : Obligations.IntegerSampleTakesOneDrawATurn := by
  intro i gsel g lb ub s hi hle hg hs
  rw [exec_of_samples hi hle hg hs]
  refine ⟨fun v hv => ⟨_, uiMapTurn_of_accepted hv, rfl, sext64_toInt v⟩, fun hrej f hf => ?_⟩
  rw [uiMapTurn_of_rejected hrej, State.reject, hf]
  rfl

end Sys2Proof.Proofs
end

section
/-! SUPPORT. UD_MAP as a value (45_uniform_double.md R270 to R272, R275, R276): the operand and the result of its subtraction, read as exponent and fraction; and the
one draw of UD_SAMPLE (R274). -/

namespace Sys2Proof.Machine

open Sys2Proof.Safety

/-! ## Encodings with sign 0 -/

/-- The binary64 encoding with sign 0, biased exponent `e` and fraction `f`, each cut to the width of its field (R12). -/
def f64Bits (e f : Nat) : Word := 0#1 ++ BitVec.ofNat 11 e ++ BitVec.ofNat 52 f

theorem f64Bits_toNat (e f : Nat) : (f64Bits e f).toNat = e % 2 ^ 11 * 2 ^ 52 + f % 2 ^ 52 := by
  have hexp : (0#1 ++ BitVec.ofNat 11 e).toNat = e % 2 ^ 11 := (BitVec.toNat_append _ _).trans (by simp)
  calc (f64Bits e f).toNat = (0#1 ++ BitVec.ofNat 11 e).toNat <<< 52 ||| f % 2 ^ 52 := BitVec.toNat_append _ _
    _ = e % 2 ^ 11 * 2 ^ 52 + f % 2 ^ 52 := by
      rw [← Nat.shiftLeft_add_eq_or_of_lt (Nat.mod_lt f (by decide)), hexp, Nat.shiftLeft_eq]

theorem f64Bits_sign (e f : Nat) : (f64Bits e f).getLsbD 63 = false := by
  rw [← BitVec.testBit_toNat, f64Bits_toNat]
  exact Nat.testBit_lt_two_pow (by omega)

theorem f64Exponent_f64Bits {e : Nat} (he : e < 2 ^ 11) (f : Nat) : f64Exponent (f64Bits e f) = e := by
  rw [f64Exponent, BitVec.extractLsb'_toNat, f64Bits_toNat, Nat.shiftRight_eq_div_pow]
  omega

theorem f64Fraction_f64Bits (e f : Nat) : f64Fraction (f64Bits e f) = f % 2 ^ 52 := by
  rw [f64Fraction, BitVec.extractLsb'_toNat, f64Bits_toNat, Nat.shiftRight_zero]
  omega

/-- The value of a normal encoding, for the exponents of 2^-52 to 1 (R12). -/
theorem f64Value_f64Bits {p : Nat} (hp : p ≤ 52) (f : Nat) :
    f64Value (f64Bits (971 + p) f) = some ((2 ^ 52 + ((f % 2 ^ 52 : Nat) : ℚ)) * 2 ^ p / 2 ^ 104) := by
  have hexp : f64Exponent (f64Bits (971 + p) f) = 971 + p := f64Exponent_f64Bits (by omega) f
  have hsplit : 1075 = 971 + 104 := rfl
  rw [f64Value, f64Bits_sign, hexp, f64Fraction_f64Bits, if_neg (by omega), if_neg (by omega), hsplit]
  simp only [Bool.false_eq_true, if_false, one_mul, pow_add, mul_left_comm _ ((2 : ℚ) ^ 971)]
  rw [mul_div_mul_left _ _ (by positivity)]

/-! ## The operand of the subtraction -/

/-- The top 52 bits of a draw, `m` of R270, are a number below 2^52. -/
theorem top52_lt (raw : Word) : raw.toNat / 2 ^ 12 < 2 ^ 52 := by
  have := raw.isLt
  omega

theorem udOperand_eq_f64Bits (raw : Word) : udOperand raw = f64Bits 0x3FF (raw.toNat / 2 ^ 12) := by
  apply BitVec.eq_of_toNat_eq
  rw [udOperand, f64Bits, BitVec.toNat_or, BitVec.toNat_append, BitVec.toNat_ushiftRight, Nat.shiftRight_eq_div_pow, BitVec.toNat_ofNat _ 52,
    Nat.mod_eq_of_lt (top52_lt raw)]
  rfl

theorem f64Value_udOperand (raw : Word) : f64Value (udOperand raw) = some (1 + ((raw.toNat / 2 ^ 12 : Nat) : ℚ) / 2 ^ 52) := by
  rw [udOperand_eq_f64Bits, f64Value_f64Bits (p := 52) le_rfl, Nat.mod_eq_of_lt (top52_lt raw)]
  congr 1
  ring

theorem f64Value_oneF64 : f64Value oneF64 = some 1 := by
  simpa [udOperand] using f64Value_udOperand 0

theorem significand_f64Bits (e f : Nat) : significand (f64Bits e f) = 2 ^ 52 + f % 2 ^ 52 :=
  congrArg (2 ^ 52 + ·) (f64Fraction_f64Bits e f)

/-- The difference of the significands is the draw's top 52 bits (R271). -/
theorem udMap_eq_udBits (raw : Word) : udMap raw = udBits (raw.toNat / 2 ^ 12) := by
  have hy : significand (udOperand raw) = 2 ^ 52 + raw.toNat / 2 ^ 12 := by
    rw [udOperand_eq_f64Bits, significand_f64Bits, Nat.mod_eq_of_lt (top52_lt raw)]
  have hone : significand oneF64 = 2 ^ 52 := by decide
  rw [udMap, fsubOne, hy, hone, Nat.add_sub_cancel_left]

/-! ## The closed form -/

theorem udBits_zero : udBits 0 = 0 := rfl

section
variable {m : Nat}

theorem udBits_of_ne_zero (hm : m ≠ 0) : udBits m = f64Bits (971 + m.log2) (m <<< (52 - m.log2)) :=
  if_neg hm

theorem udBits_sign (m : Nat) : (udBits m).getLsbD 63 = false := by
  obtain rfl | hm := eq_or_ne m 0
  · decide
  · rw [udBits_of_ne_zero hm, f64Bits_sign]

theorem f64Exponent_udBits (hm : m ≠ 0) (hlt : m < 2 ^ 52) : f64Exponent (udBits m) = 971 + m.log2 := by
  have hp := (Nat.log2_lt hm).2 hlt
  rw [udBits_of_ne_zero hm, f64Exponent_f64Bits (by omega)]

/-- Left-aligned, the leading 1 of `m` stands at bit 52 and the fraction below it (R271). -/
theorem leftAligned_eq (hm : m ≠ 0) (hlt : m < 2 ^ 52) : 2 ^ 52 + (m <<< (52 - m.log2)) % 2 ^ 52 = m * 2 ^ (52 - m.log2) := by
  have hp := (Nat.log2_lt hm).2 hlt
  have hlow : 2 ^ 52 ≤ m * 2 ^ (52 - m.log2) := by
    calc 2 ^ 52 = 2 ^ m.log2 * 2 ^ (52 - m.log2) := by rw [← pow_add, Nat.add_sub_cancel' hp.le]
      _ ≤ _ := Nat.mul_le_mul_right _ (Nat.log2_self_le hm)
  have hhigh : m * 2 ^ (52 - m.log2) < 2 ^ 53 := by
    calc m * 2 ^ (52 - m.log2) < 2 ^ (m.log2 + 1) * 2 ^ (52 - m.log2) := Nat.mul_lt_mul_of_pos_right Nat.lt_log2_self (by positivity)
      _ = 2 ^ 53 := by rw [← pow_add]; congr 1; omega
  rw [Nat.shiftLeft_eq]
  omega

theorem f64Value_udBits (hlt : m < 2 ^ 52) : f64Value (udBits m) = some ((m : ℚ) / 2 ^ 52) := by
  obtain rfl | hm := eq_or_ne m 0
  · simp [udBits_zero, f64Value, f64Exponent, f64Fraction]
  have hp := (Nat.log2_lt hm).2 hlt
  have hfrac : 2 ^ 52 + ((m <<< (52 - m.log2) % 2 ^ 52 : Nat) : ℚ) = m * 2 ^ (52 - m.log2) := mod_cast leftAligned_eq hm hlt
  rw [udBits_of_ne_zero hm, f64Value_f64Bits hp.le, hfrac, mul_assoc, ← pow_add, Nat.sub_add_cancel hp.le]
  congr 1
  ring

/-- Only +0.0 has the exponent of zero and the subnormals (R275, R276). -/
theorem udBits_eq_zero_of_f64Exponent (hlt : m < 2 ^ 52) (hexp : f64Exponent (udBits m) = 0) : udBits m = 0 := by
  obtain rfl | hm := eq_or_ne m 0
  · exact udBits_zero
  · rw [f64Exponent_udBits hm hlt] at hexp
    omega

/-- The exponent is below that of 1.0, and so below that of the infinities and NaNs (R272, R276). -/
theorem f64Exponent_udBits_lt (hlt : m < 2 ^ 52) : f64Exponent (udBits m) < 1023 := by
  obtain rfl | hm := eq_or_ne m 0
  · decide
  · have hp := (Nat.log2_lt hm).2 hlt
    rw [f64Exponent_udBits hm hlt]
    omega

end

theorem udBits_inj {m n : Nat} (hm : m < 2 ^ 52) (hn : n < 2 ^ 52) : udBits m = udBits n ↔ m = n := by
  refine ⟨fun h => ?_, congrArg udBits⟩
  have hvalue := congrArg f64Value h
  rw [f64Value_udBits hm, f64Value_udBits hn] at hvalue
  simpa using hvalue

/-! ## The result of a draw -/

/-- The value of the result is that of the draw's top 52 bits in units of 2^-52 (R271). -/
theorem f64Value_udMap (raw : Word) : f64Value (udMap raw) = some (((raw.toNat / 2 ^ 12 : Nat) : ℚ) / 2 ^ 52) := by
  rw [udMap_eq_udBits, f64Value_udBits (top52_lt raw)]

/-- Each multiple of 2^-52 below 1 has a draw (R276). -/
theorem exists_draw_of_top52 {k : Nat} (hk : k < 2 ^ 52) : ∃ raw : Word, raw.toNat / 2 ^ 12 = k := by
  refine ⟨BitVec.ofNat 64 (k * 2 ^ 12), ?_⟩
  rw [BitVec.toNat_ofNat]
  omega

/-! ## The command -/

/-- A command of one draw completes with that draw's generator state and, in RES, a function of its word (R274). -/
theorem oneDraw_eq (g : Gen) (f : Word → Word) (s : State) :
    oneDraw g f s = .next { s with gens := (draw64 g s.gens).1, res := f (draw64 g s.gens).2, err := .ok, inflight := none } := rfl

end Sys2Proof.Machine
end

section
/-! SUPPORT. The statements about the double mapper and its command (45_uniform_double.md) that are settled. -/

namespace Sys2Proof.Proofs

open Sys2Proof.Machine Sys2Proof.Safety

/-- Settles O52: the operand's value is 1 + m / 2^52, and UD_BITS encodes what the subtraction leaves of it. -/
theorem doubleIsTheExactDifference : Obligations.DoubleIsTheExactDifference := by
  intro raw
  refine ⟨_, _, f64Value_udMap raw, f64Value_udOperand raw, ?_, rfl, udMap_eq_udBits raw⟩
  rw [add_sub_cancel_left]

/-- Settles O53: the top 52 bits of the draw are at most 2^52 - 1, and the encoding of 1.0 has the value 1. -/
theorem doubleIsBelowOne : Obligations.DoubleIsBelowOne := by
  refine ⟨fun raw => ?_, by decide⟩
  have hle : ((raw.toNat / 2 ^ 12 : Nat) : ℚ) ≤ 2 ^ 52 - 1 := by
    rw [le_sub_iff_add_le]
    exact_mod_cast top52_lt raw
  have hbound : ((raw.toNat / 2 ^ 12 : Nat) : ℚ) / 2 ^ 52 ≤ 1 - 1 / 2 ^ 52 := by linarith
  have hlt : ((raw.toNat / 2 ^ 12 : Nat) : ℚ) / 2 ^ 52 < 1 := by linarith
  refine ⟨_, f64Value_udMap raw, by positivity, hbound, hlt, fun hone => hlt.ne (Option.some.inj ?_)⟩
  rw [← f64Value_udMap, hone, f64Value_oneF64]

/-- Settles O54: UD_BITS is injective below 2^52, every multiple of 2^-52 below 1 has a draw, and every nonzero result has the exponent of a normal number. -/
theorem doubleGranularity : Obligations.DoubleGranularity := by
  refine ⟨fun a b => ?_, fun raw => ⟨_, top52_lt raw, f64Value_udMap raw⟩, fun k hk => ?_, fun raw => ?_, fun raw hraw => ?_, by decide⟩
  · rw [udMap_eq_udBits, udMap_eq_udBits, udBits_inj (top52_lt a) (top52_lt b)]
  · obtain ⟨raw, rfl⟩ := exists_draw_of_top52 hk
    exact ⟨raw, f64Value_udMap raw⟩
  · have hexp := f64Exponent_udBits_lt (top52_lt raw)
    rw [udMap_eq_udBits]
    exact ⟨by omega, udBits_eq_zero_of_f64Exponent (top52_lt raw), udBits_sign _⟩
  · rw [udMap_eq_udBits, Nat.div_eq_of_lt hraw, udBits_zero]

/-- Settles O38: a command whose generator is seeded is its one draw. -/
theorem doubleSampleTakesOneDraw : Obligations.DoubleSampleTakesOneDraw :=
  fun _ g s hg hs => (withGen_of_seeded _ hg hs).trans (oneDraw_eq g udMap s)

end Sys2Proof.Proofs
end

section
/-! SUPPORT. How a command that raises ends, and the turn of an idle engine (60_exceptions.md R302 to R305, R318). -/

namespace Sys2Proof.Machine

open Sys2Proof.Safety

variable {s t : State} {i : Instr}

/-- The engine does nothing on its own (R318). -/
theorem engineTurn_of_idle (hidle : s.inflight = none) : engineTurn s = .next s := by
  have hfetch : fetch s = none := congrArg (Option.map _) hidle
  simp only [engineTurn, hfetch]

/-- How the command `i` raises: with the code as its only write (R303), or, at the first use of an entropy facility that is not available, after the
check of R98 has set ENTINIT and EFATAL. The code is of the command's row of R302. -/
inductive RaiseCase (s : State) (i : Instr) : State → Prop
  | precise (e : ErrCode) (he : i.wf = true → e ∈ mayRaise i) : RaiseCase s i (s.raise e)
  | unavailable (he : ErrCode.entropyUnavailable ∈ mayRaise i) :
      RaiseCase s i (({ s with entInit := true, efatal := true } : State).raise .entropyUnavailable)

theorem entropyUnavailable_mem_mayRaise (hi : i = .smSeedEnt ∨ i = .xoSeedEnt) : ErrCode.entropyUnavailable ∈ mayRaise i := by
  rcases hi with rfl | rfl <;> exact List.mem_singleton_self _

/-- A command in flight that has ended completed normally or raised: one that waits or has rejected a draw is still in flight. -/
theorem ExecCase.ok_or_raiseCase (h : ExecCase s i t) (hbusy : s.inflight ≠ none) (hnone : t.inflight = none) :
    t.err = .ok ∨ RaiseCase s i t := by
  cases h with
  | zeroState | badLength | invalidLb | invalidUb | invalidRange => exact .inr (.precise _ fun _ => List.mem_cons_self)
  | nullGenerator _ he => exact .inr (.precise _ he)
  | unseeded _ he => exact .inr (.precise _ fun _ => he)
  | fatal _ hi => exact .inr (.precise _ fun _ => entropyUnavailable_mem_mayRaise hi)
  | unavailable _ hi => exact .inr (.unavailable (entropyUnavailable_mem_mayRaise hi))
  | wait => exact absurd hnone hbusy
  | request | reject => exact absurd (by simpa using hnone) hbusy
  | _ => exact .inl rfl

theorem RaiseCase.err_mem_mayRaise (h : RaiseCase s i t) (hwf : i.wf = true) : t.err ∈ mayRaise i := by
  cases h with
  | precise e he => exact he hwf
  | unavailable he => exact he

end Sys2Proof.Machine
end

section
/-! SUPPORT. The statements about errors and the idle engine (60_exceptions.md) that are settled. -/

namespace Sys2Proof.Proofs

open Sys2Proof.Machine Sys2Proof.Safety

/-- Settles O17: an illegal word and a command that raises end in `State.raise`, applied to the state before the turn or, with ENTROPY_UNAVAILABLE, to that state with the
two flags set. -/
theorem errorsArePrecise : Obligations.ErrorsArePrecise := by
  intro s t f hm hf h hnone herr
  have hbusy : s.inflight ≠ none := by simp [hf]
  rw [step_of_engineMoves hm] at h
  rcases engineTurn_cases h with ⟨hidle, -⟩ | ⟨-, -, -, -, rfl⟩ | ⟨-, i, -, -, hexec⟩
  · exact absurd hidle hbusy
  · exact ⟨rfl, fun _ => ⟨rfl, rfl⟩⟩
  · rcases hexec.ok_or_raiseCase hbusy hnone with hok | hraise
    · exact absurd hok herr
    · cases hraise with
      | precise => exact ⟨rfl, fun _ => ⟨rfl, rfl⟩⟩
      | unavailable => exact ⟨rfl, fun hne => absurd rfl hne⟩

/-- Settles O18: a command that does not complete normally raises, and its code is of its row. -/
theorem commandsRaiseOnlyTheirCodes : Obligations.CommandsRaiseOnlyTheirCodes :=
  fun _ _ _ _ hwf hf h hnone =>
    ((exec_cases h).ok_or_raiseCase (by simp [hf]) hnone).imp_right fun hraise => hraise.err_mem_mayRaise hwf

/-- Settles O7: only the event that gave the engine its turn leaves the queue. -/
theorem idleEngineKeepsAllState : Obligations.IdleEngineKeepsAllState :=
  fun _ hm hidle => (step_of_engineMoves hm).trans (engineTurn_of_idle (State.busy_eq_false.1 hidle))

end Sys2Proof.Proofs
end

section
/-! SUPPORT. What a step on the reset event does (70_reset_and_hazards.md R340). -/

namespace Sys2Proof.Machine

/-- The reset event leaves the queue, whatever the engine was doing. -/
theorem step_reset {s : State} {rest : List Input} (hin : s.inputs = .reset :: rest) :
    step s = .next ({ s with inputs := rest } : State).assertReset :=
  step_of_input hin nofun

/-- With the command in flight goes its request for an entropy word (R95). -/
@[simp] theorem State.assertReset_entReq (s : State) : s.assertReset.entReq = false := rfl

end Sys2Proof.Machine
end

section
/-! SUPPORT. The statement about reset (70_reset_and_hazards.md) that is settled. -/

namespace Sys2Proof.Proofs

open Sys2Proof.Machine

/-- Settles O60: the event ends in `State.assertReset`, whose fields are the values of R57 by their laws; the fields of `State.reset` are those values as it is written. -/
theorem resetSetsTheResetValues : Obligations.ResetSetsTheResetValues := by
  intro s rest hin
  refine ⟨_, step_reset hin, State.assertReset_inputs _, ?_⟩
  rintro u (rfl | rfl)
  · simp
  · exact ⟨rfl, rfl, rfl, rfl, rfl, rfl, rfl, rfl, rfl, rfl, rfl, rfl, rfl, rfl, rfl, rfl⟩

end Sys2Proof.Proofs
end
